-- ==== Sys2Proof/Config.lean ====
section
/-! DEFINITION. What an implementation of CORE fixes: the two OPEN capacities (00_scope.md R7, 20_memory.md R64,
92_eei_decisions.md D10), and the numbers the source fixes (R6). -/

namespace Sys2Proof.Config

/-- The implementation's choice behind `dbufCap`. It has no body: nothing can be proved of its value. -/
opaque dbufChoice : Nat

/-- The implementation's choice behind `abufCap`. It has no body. -/
opaque abufChoice : Nat

/-- `DBUF_CAP`, the capacity in bytes of DIN and of DOUT: any number from 65535 up to 2^64 - 1 (R64).
DESIGN CHOICE (log entry 4), safe: every legal capacity is some value of `dbufChoice`. -/
def dbufCap : Nat := 65535 + dbufChoice % (2 ^ 64 - 65535)

/-- `ABUF_CAP`, the capacity in bytes of ABUF: any number below 2^64 (R64). DESIGN CHOICE (log entry 4), safe. -/
def abufCap : Nat := abufChoice % 2 ^ 64

/-- `KEY_BYTES` (R6). -/
def keyBytes : Nat := 16

/-- `BLOCK_BYTES` (R6). -/
def blockBytes : Nat := 16

/-- `NONCE_BYTES`, `15 - L` with `L = 2` (R6). -/
def nonceBytes : Nat := 13

/-- `2^(8*L)`: the first plaintext length that is too long (R6, R206). -/
def messageLimit : Nat := 65536

end Sys2Proof.Config
end

