-- ==== Sys2Proof/Word.lean ====
section
/-! DEFINITION. Bytes, fixed-length byte strings and the all-zero strings (00_scope.md R8, R9). -/

namespace Sys2Proof

/-- A byte, bits 7 (most significant) to 0 (R8). -/
abbrev Byte := BitVec 8

/-- A byte string of fixed length `n`; index 0 is the first byte (R9). -/
abbrev Bytes (n : Nat) := Vector Byte n

/-- A block is a byte string of length 16 (R9). -/
abbrev Block := Bytes 16

/-- A schedule word is a string of 4 bytes, never an integer (R100). -/
abbrev KeyWord := Bytes 4

/-- A CCM nonce: 13 bytes (R6). -/
abbrev Nonce := Bytes 13

/-- The round-key store: 11 round keys (R38). -/
abbrev RoundKeys := Vector Block 11

/-- `zeros(16)` (R9). -/
def zeroBlock : Block := Vector.replicate 16 0

/-- Four zero bytes. -/
def zeroWord : KeyWord := Vector.replicate 4 0

/-- `zeros(13)`. -/
def zeroNonce : Nonce := Vector.replicate 13 0

/-- Eleven zero round keys. -/
def zeroKeys : RoundKeys := Vector.replicate 11 zeroBlock

end Sys2Proof
end

