-- ==== Sys2Proof/Syntax.lean ====
section
/-! DEFINITION. The instructions: one constructor per row of spec/opcode_table.json. No command has an operand
field (30_encoding.md R80), and the internal operations take theirs from the working registers (R94, log entry 7). -/

namespace Sys2Proof

/-- The nine host commands (format CMD8, R81) and the ten internal operations (format INTERNAL4, R94). -/
inductive Instr where
  /-- 0x01: key expansion (R106). -/
  | keyexp
  /-- 0x02: encrypt one block (R129). -/
  | encblk
  /-- 0x03: build a CMAC context (R143). -/
  | cmacinit
  /-- 0x04: generate a CMAC tag (R147). -/
  | cmacgen
  /-- 0x05: verify a CMAC tag (R149). -/
  | cmacvfy
  /-- 0x06: build a CCM binding (R160). -/
  | ccminit
  /-- 0x07: CCM encryption (R185). -/
  | ccmenc
  /-- 0x08: CCM decryption (R186). -/
  | ccmdec
  /-- 0x09: zeroise (R195). -/
  | clear
  /-- label 0x1: pipeline stage 1 (R122). -/
  | subbytes
  /-- label 0x2: pipeline stage 2 (R123). -/
  | shiftrows
  /-- label 0x3: pipeline stage 3 (R125). -/
  | mixcolumns
  /-- label 0x4: pipeline stage 4 (R126). -/
  | addroundkey
  /-- label 0x5: one word of the key schedule (R104). -/
  | ksword
  /-- label 0x6: all rounds, the function `E` (R127). -/
  | enccore
  /-- label 0x7: one CMAC subkey doubling (R141). -/
  | dbl
  /-- label 0x8: one step of the CBC chain (R146). -/
  | absorb
  /-- label 0x9: one keystream block (R181). -/
  | ctrblk
  /-- label 0xA: the tag comparator (R148). -/
  | tagcmp
  deriving DecidableEq, Repr

end Sys2Proof
end

