-- ==== Sys2Proof/WellFormed.lean ====
section
/-! DEFINITION. Which instruction terms are well formed, and which of them a host may issue. An instruction of CORE has no
operand (30_encoding.md R80), so every term is well formed as an instruction; the one check that can refuse a
term is whether it is a host command: the ten internal operations "are not reachable by the host" (R94). -/

namespace Sys2Proof

/-- The table's `host_visible`: the instruction is one of the nine commands of R81. -/
def Instr.hostVisible : Instr → Bool
  | .keyexp => true
  | .encblk => true
  | .cmacinit => true
  | .cmacgen => true
  | .cmacvfy => true
  | .ccminit => true
  | .ccmenc => true
  | .ccmdec => true
  | .clear => true
  | .subbytes => false
  | .shiftrows => false
  | .mixcolumns => false
  | .addroundkey => false
  | .ksword => false
  | .enccore => false
  | .dbl => false
  | .absorb => false
  | .ctrblk => false
  | .tagcmp => false

/-- The number of bits the encoding of an instruction has: 8 for a command (R80), 4 for a label (R94). -/
def Instr.width (i : Instr) : Nat := if i.hostVisible then 8 else 4

end Sys2Proof
end

