-- ==== Sys2Proof/Decode.lean ====
section
/-! DEFINITION. The decoder, total on every byte and every label, rejecting by name; then the encoder, written
from the same tables (30_encoding.md R80, R81, R82, R94, R95). -/

namespace Sys2Proof

/-- An encoded instruction: a command byte as written to CMD (R80), or the 4-bit label of an internal operation (R94). -/
inductive Encoded where
  | cmd8 (c : Byte)
  | internal4 (l : BitVec 4)
  deriving DecidableEq, Repr

/-- Why an encoded instruction decodes to none. -/
inductive Reject where
  /-- A reserved command code, 0x00 or 0x0A to 0xFF (R82). -/
  | unknownCommand (c : Byte)
  /-- A label 0x0 or 0xB to 0xF (R94). -/
  | unusedLabel (l : BitVec 4)
  deriving DecidableEq, Repr

/-- The command whose code is exactly `c` (R81: match = code, mask = 0xFF). -/
def decodeCommand (c : Byte) : Except Reject Instr :=
  match c.toNat with
  | 0x01 => .ok .keyexp
  | 0x02 => .ok .encblk
  | 0x03 => .ok .cmacinit
  | 0x04 => .ok .cmacgen
  | 0x05 => .ok .cmacvfy
  | 0x06 => .ok .ccminit
  | 0x07 => .ok .ccmenc
  | 0x08 => .ok .ccmdec
  | 0x09 => .ok .clear
  | _ => .error (.unknownCommand c)

/-- The internal operation whose label is `l` (R94). -/
def decodeLabel (l : BitVec 4) : Except Reject Instr :=
  match l.toNat with
  | 0x1 => .ok .subbytes
  | 0x2 => .ok .shiftrows
  | 0x3 => .ok .mixcolumns
  | 0x4 => .ok .addroundkey
  | 0x5 => .ok .ksword
  | 0x6 => .ok .enccore
  | 0x7 => .ok .dbl
  | 0x8 => .ok .absorb
  | 0x9 => .ok .ctrblk
  | 0xA => .ok .tagcmp
  | _ => .error (.unusedLabel l)

/-- The instruction an encoding stands for. -/
def decode : Encoded → Except Reject Instr
  | .cmd8 c => decodeCommand c
  | .internal4 l => decodeLabel l

/-- The encoding of an instruction: the code of R81 or the label of R94. -/
def encode : Instr → Encoded
  | .keyexp => .cmd8 0x01
  | .encblk => .cmd8 0x02
  | .cmacinit => .cmd8 0x03
  | .cmacgen => .cmd8 0x04
  | .cmacvfy => .cmd8 0x05
  | .ccminit => .cmd8 0x06
  | .ccmenc => .cmd8 0x07
  | .ccmdec => .cmd8 0x08
  | .clear => .cmd8 0x09
  | .subbytes => .internal4 0x1
  | .shiftrows => .internal4 0x2
  | .mixcolumns => .internal4 0x3
  | .addroundkey => .internal4 0x4
  | .ksword => .internal4 0x5
  | .enccore => .internal4 0x6
  | .dbl => .internal4 0x7
  | .absorb => .internal4 0x8
  | .ctrblk => .internal4 0x9
  | .tagcmp => .internal4 0xA

/-- The encoding a table row's bits `w` lay out: a row of at most 4 bits is a label, any other a command byte.
A word of 8 bits is always a command, because a label has "no encoding on any interface" (R94, log entry 13). -/
def encodedOfTableWord (nbits w : Nat) : Encoded :=
  if nbits ≤ 4 then .internal4 (BitVec.ofNat 4 w) else .cmd8 (BitVec.ofNat 8 w)

/-- The instruction the decoder reads from the table word `w` of `nbits` bits; `none` where it refuses. -/
def decodeTableWord (nbits w : Nat) : Option Instr :=
  match decode (encodedOfTableWord nbits w) with
  | .ok i => some i
  | .error _ => none

end Sys2Proof
end

