-- ==== Sys2Proof/Machine/State.lean ====
section
/-! DEFINITION. Everything the spec gives the machine as plain data (10_state.md, 20_memory.md), the host's pending
accesses, the reasons a step can stop, and the state after reset (10_state.md R47, 70_reset_and_hazards.md R230, R231). -/

namespace Sys2Proof.Machine

/-- A buffer's contents: (address, byte) pairs, addresses strictly rising, no byte equal to what an unlisted address
reads as (0: R61 to R63 give every buffer byte 0 at reset). -/
abbrev Memory := List Host.Cell

/-- The value of STATUS.ERR by name (R201). Codes 10 to 15 are never produced, and no name has them. -/
inductive ErrCode where
  | none
  | invalidKeySize
  | invalidBlockSize
  | invalidNonceLength
  | invalidTagLength
  | plaintextTooLong
  | authenticationFailure
  | notConstructed
  | unknownCommand
  | bufferCapacity
  deriving DecidableEq, Repr

/-- The step of the command sequencer (R43). -/
inductive Phase where
  | idle
  | validate
  | expand
  | subkey
  | cipher
  | macB0
  | macAad
  | macMsg
  | macLast
  | ctrS0
  | ctrData
  | tag
  | compare
  | finish
  deriving DecidableEq, Repr

/-- The byte buffers (R60). -/
inductive Buffer where
  | abuf
  | din
  | dout
  deriving DecidableEq, Repr

/-- One host access (R92, R196, R230): the moves the host may make between commands. -/
inductive Access where
  /-- Write a value to the register numbered `n` (R36). The value is carried on 64 lines, the widest register's width. -/
  | writeReg (n : Nat) (v : BitVec 64)
  /-- Read the register numbered `n` (R36). -/
  | readReg (n : Nat)
  /-- Write one byte of a buffer (R61, R62). -/
  | put (b : Buffer) (addr : Nat) (v : Byte)
  /-- Read one byte of a buffer (R61 to R63). -/
  | get (b : Buffer) (addr : Nat)
  /-- Assert reset (R230). -/
  | reset
  deriving DecidableEq, Repr

/-- Why the machine stops with a fault. -/
inductive Fault where
  /-- Raised by a host access to a buffer address at or above the capacity: "No such byte exists" (93 U2).
  Safe: the model stops where the spec says nothing. -/
  | noSuchBufferByte
  /-- Raised by the internal operation KSWORD run alone with WI outside 4 to 43 (R104 defines it for those only).
  Safe: no command reaches it. -/
  | wordIndexOutOfRange
  /-- Raised by the internal operation ADDROUNDKEY run alone with RND above 10: there is no such round key (R38, R126).
  Safe: no command reaches it. -/
  | roundOutOfRange
  deriving DecidableEq, Repr

/-- Why the machine gives a host access or an instruction no meaning. -/
inductive Refusal where
  /-- Raised by no arm now: every instruction has its meaning. Safe. -/
  | notModelled (mnemonic : String)
  /-- Raised by a host write of a value that does not fit the register: "A host write carries a value of exactly the
  register's width" (R37), so no such move exists. Safe. -/
  | hostValueTooWide
  deriving DecidableEq, Repr

/-- The state of CORE (R20), with the host's pending accesses and the values its reads returned. -/
structure State where
  /-- KEYIN (R21). -/
  keyin : Block
  /-- NONCEIN (R22). -/
  noncein : Nonce
  /-- TAGIN (R23). -/
  tagin : Block
  /-- TAGOUT (R24). -/
  tagout : Block
  /-- KLEN (R25). -/
  klen : BitVec 32
  /-- NLEN (R26). -/
  nlen : BitVec 32
  /-- MACLEN (R27). -/
  maclen : BitVec 32
  /-- TLEN (R28). -/
  tlen : BitVec 32
  /-- ALEN (R29). -/
  alen : BitVec 64
  /-- DLEN (R30). -/
  dlen : BitVec 64
  /-- OLEN (R31). -/
  olen : BitVec 64
  /-- TOLEN (R32). -/
  tolen : BitVec 8
  /-- STATUS.DONE (R34). -/
  done : Bool
  /-- STATUS.BUSY (R34). -/
  busy : Bool
  /-- STATUS.KVALID (R34, R41). -/
  kvalid : Bool
  /-- STATUS.SKVALID (R34, R41). -/
  skvalid : Bool
  /-- STATUS.CCMVALID (R34, R41). -/
  ccmvalid : Bool
  /-- STATUS.OK (R34). -/
  ok : Bool
  /-- STATUS.ERR (R34, R201). -/
  err : ErrCode
  /-- RK, the round-key store (R38). -/
  rk : RoundKeys
  /-- K1 (R39). -/
  k1 : Block
  /-- K2 (R39). -/
  k2 : Block
  /-- NONCE (R40). -/
  nonce : Nonce
  /-- MLEN (R40). -/
  mlen : BitVec 5
  /-- S, the state matrix, byte `r + 4c` in row `r`, column `c` (R42, R120). -/
  regS : Block
  /-- X, the CBC-MAC accumulator (R42, R164). -/
  regX : Block
  /-- A, the current counter block (R42, R180). -/
  regA : Block
  /-- KS, the current keystream block (R42, R181). -/
  regKS : Block
  /-- S0, the tag mask (R42, R183). -/
  regS0 : Block
  /-- T, the temporary word of key expansion (R42, R104). -/
  regT : KeyWord
  /-- LB, the block being assembled (R42). -/
  regLB : Block
  /-- CTR (R42, R180). -/
  regCTR : BitVec 16
  /-- RND (R42, R127). -/
  regRND : BitVec 4
  /-- WI (R42, R105). -/
  regWI : BitVec 6
  /-- BI (R42, R145, R163). -/
  regBI : BitVec 64
  /-- PHASE (R43). -/
  phase : Phase
  /-- ABUF (R61). -/
  abuf : Memory
  /-- DIN (R62). -/
  din : Memory
  /-- DOUT (R63). -/
  dout : Memory
  /-- The model's own: the host accesses still to come, in the total order of R71. DESIGN CHOICE (log entry 1). -/
  host : List Access
  /-- The model's own: what the host's reads returned, newest first. DESIGN CHOICE (log entry 2). -/
  got : List (BitVec 64)
  deriving DecidableEq, Repr

/-- The state after reset (R47, R230, R231): every register, private register and buffer byte 0, PHASE IDLE.
The host has nothing pending and has read nothing. -/
def State.reset : State where
  keyin := zeroBlock
  noncein := zeroNonce
  tagin := zeroBlock
  tagout := zeroBlock
  klen := 0
  nlen := 0
  maclen := 0
  tlen := 0
  alen := 0
  dlen := 0
  olen := 0
  tolen := 0
  done := false
  busy := false
  kvalid := false
  skvalid := false
  ccmvalid := false
  ok := false
  err := .none
  rk := zeroKeys
  k1 := zeroBlock
  k2 := zeroBlock
  nonce := zeroNonce
  mlen := 0
  regS := zeroBlock
  regX := zeroBlock
  regA := zeroBlock
  regKS := zeroBlock
  regS0 := zeroBlock
  regT := zeroWord
  regLB := zeroBlock
  regCTR := 0
  regRND := 0
  regWI := 0
  regBI := 0
  phase := .idle
  abuf := []
  din := []
  dout := []
  host := []
  got := []

end Sys2Proof.Machine
end

