-- ==== Sys2Proof/Machine/Bytes.lean ====
section
/-! DEFINITION. Byte-string and integer helpers (00_scope.md R8 to R12). -/

namespace Sys2Proof.Machine

/-- `a ^ b` on two blocks (R9). -/
def xorBlock (a b : Block) : Block := Vector.ofFn fun k => a[k] ^^^ b[k]

/-- `a ^ b` on two schedule words (R9, R104). -/
def xorWord (a b : KeyWord) : KeyWord := Vector.ofFn fun k => a[k] ^^^ b[k]

/-- The first 16 bytes of a byte string as a block; a shorter string is followed by zeros. -/
def blockOf (bs : List Byte) : Block := Vector.ofFn fun k => bs.getD k.val 0

/-- The `k`-byte big-endian encoding of `n` (R10). -/
def beBytes (k n : Nat) : List Byte := (List.range k).map fun j => BitVec.ofNat 8 (n / 256 ^ (k - 1 - j))

/-- `be16(n)`, `be32(n)`, `be64(n)` (R10). -/
def be16 (n : Nat) : List Byte := beBytes 2 n
/-- See `be16`. -/
def be32 (n : Nat) : List Byte := beBytes 4 n
/-- See `be16`. -/
def be64 (n : Nat) : List Byte := beBytes 8 n

/-- `int(s)`: the natural number whose big-endian encoding is `s` (R10). -/
def intOf (bs : List Byte) : Nat := bs.foldl (fun n b => 256 * n + b.toNat) 0

/-- `n` rounded up to a multiple of 16 (R12). -/
def ceil16 (n : Nat) : Nat := 16 * ((n + 15) / 16)

/-- The zero bytes that bring `n` up to a block boundary (R12). -/
def pad16 (n : Nat) : Nat := ceil16 n - n

/-- A block from a number written in hexadecimal, index 0 the most significant end (R8, R66). -/
def blockOfNat (n : Nat) : Block := Vector.ofFn fun k => BitVec.ofNat 8 (n / 256 ^ (15 - k.val))

/-- The loop "for i in lo .. lo+n-1 (ascending)" of the spec's pseudocode. -/
def forRange {σ : Type} : Nat → Nat → (Nat → σ → σ) → σ → σ
  | _, 0, _, s => s
  | lo, n + 1, f, s => forRange (lo + 1) n f (f lo s)

end Sys2Proof.Machine
end

