-- ==== Sys2Proof/Machine/Ops.lean ====
section
/-! DEFINITION. The named operations over memory and registers: buffer bytes (20_memory.md R70), round-key words
(10_state.md R38), the command prologue and epilogue (R48, R49), ending in an error (60_exceptions.md R212) and
the reset of everything (R47, R230). -/

namespace Sys2Proof.Machine

/-- The result of a meaning. -/
abbrev Result := Host.Outcome State Fault Refusal

/-! ### Memory -/

/-- What a byte that nothing has written reads as: every buffer byte is 0 after reset (R61 to R63). -/
def unlistedByte : Byte := 0

/-- The byte at one address. -/
def memRead : Memory → Nat → Byte
  | [], _ => unlistedByte
  | (k, b) :: m, a => if k = a then b else memRead m a

/-- Store one byte, keeping the canonical form. -/
def memWrite : Memory → Nat → Byte → Memory
  | [], a, v => if v = unlistedByte then [] else [(a, v)]
  | (k, b) :: m, a, v =>
    if a < k then (if v = unlistedByte then (k, b) :: m else (a, v) :: (k, b) :: m)
    else if a = k then (if v = unlistedByte then m else (a, v) :: m)
    else (k, b) :: memWrite m a v

/-- The canonical form: addresses strictly rising, and no byte listed that an unlisted address reads as. -/
abbrev Memory.wf (m : Memory) : Prop :=
  List.Pairwise (fun c d => c.1 < d.1) m ∧ ∀ c ∈ m, c.2 ≠ unlistedByte

/-- `MemRead(SPACE, addr, n)` (R70). -/
def memReadBytes (m : Memory) (addr n : Nat) : List Byte := (List.range n).map fun k => memRead m (addr + k)

/-- `MemWrite(SPACE, addr, len(v), v)` (R70). -/
def memWriteBytes : Memory → Nat → List Byte → Memory
  | m, _, [] => m
  | m, a, b :: bs => memWriteBytes (memWrite m a b) (a + 1) bs

/-- The capacity of a buffer in bytes (R61 to R64). -/
def capacity : Buffer → Nat
  | .abuf => Config.abufCap
  | .din => Config.dbufCap
  | .dout => Config.dbufCap

/-! ### Round keys -/

/-- `RK[r]` (R38). -/
def roundKey (rk : RoundKeys) (r : Nat) : Block := rk[r]?.getD zeroBlock

/-- The word view of the round-key store: `W[i]` (R38, R100). -/
def keyWord (rk : RoundKeys) (i : Nat) : KeyWord :=
  Vector.ofFn fun k => (roundKey rk (i / 4))[4 * (i % 4) + k.val]'(by omega)

/-- `W[i] <- w` in the round-key store (R38, R104). -/
def setKeyWord (rk : RoundKeys) (i : Nat) (w : KeyWord) : RoundKeys :=
  rk.setIfInBounds (i / 4)
    (Vector.ofFn fun k => if k.val / 4 = i % 4 then w[k.val % 4]'(by omega) else (roundKey rk (i / 4))[k])

/-! ### The command frame -/

/-- Every working register to 0 (R42). -/
def clearWorking (s : State) : State :=
  { s with
    regS := zeroBlock, regX := zeroBlock, regA := zeroBlock, regKS := zeroBlock, regS0 := zeroBlock
    regT := zeroWord, regLB := zeroBlock, regCTR := 0, regRND := 0, regWI := 0, regBI := 0 }

/-- The prologue of every write to CMD (R48). -/
def prologue (s : State) : State :=
  { s with ok := false, err := .none, olen := 0, tolen := 0, busy := true, phase := .validate }

/-- The epilogue of every command but CLEAR (R49). -/
def epilogue (s : State) : State :=
  { clearWorking s with phase := .idle, busy := false, done := true }

/-- The last arrow of every phase order of R187: FINISH, then the epilogue. -/
def finish (s : State) : State := epilogue { s with phase := .finish }

/-- `raise E`, the one way a command ends in an error (R212): ERR and OK, then the epilogue. There is nothing to
return from: the prologue of the next command clears ERR (R213). -/
def raise (e : ErrCode) (s : State) : State := finish { s with err := e, ok := false }

/-- Everything to its reset value (R47, R195, R230); the host keeps what it has still to do and what it has read. -/
def resetAll (s : State) : State := { State.reset with host := s.host, got := s.got }

end Sys2Proof.Machine
end

