-- ==== Sys2Proof/Machine/Flags.lean ====
section
/-! DEFINITION. STATUS and its flags (10_state.md R34, R41, R44), the error codes (60_exceptions.md R201) and the tag
comparison (42_cmac.md R148). -/

namespace Sys2Proof.Machine

/-- The numeric code of STATUS.ERR (R201). -/
def errNumber : ErrCode → BitVec 4
  | .none => 0
  | .invalidKeySize => 1
  | .invalidBlockSize => 2
  | .invalidNonceLength => 3
  | .invalidTagLength => 4
  | .plaintextTooLong => 5
  | .authenticationFailure => 6
  | .notConstructed => 7
  | .unknownCommand => 8
  | .bufferCapacity => 9

/-- A flag as one bit. -/
def flagBit (b : Bool) : BitVec 1 := if b then 1 else 0

/-- STATUS as the host reads it (R34): bits 15:12 and 7:6 read 0. -/
def statusWord (s : State) : BitVec 16 :=
  (0#4 ++ errNumber s.err ++ 0#2 ++ flagBit s.ok ++ flagBit s.ccmvalid ++ flagBit s.skvalid ++ flagBit s.kvalid
    ++ flagBit s.busy ++ flagBit s.done : BitVec 16)

/-- (KVALID, SKVALID, CCMVALID) of a successful construction (R41). -/
def setValid (k sk ccm : Bool) (s : State) : State := { s with kvalid := k, skvalid := sk, ccmvalid := ccm }

/-- `OK <- 1` (R49). -/
def succeed (s : State) : State := { s with ok := true }

/-- `TAGCMP(exp, got, gotlen)` (R148): every byte position is visited, the differences accumulated by inclusive or. -/
def tagsMatch (exp got : List Byte) (gotlen : Nat) : Bool :=
  if gotlen ≠ exp.length then false
  else (List.zipWith (fun e g => e ^^^ g) exp got).foldl (fun acc d => acc ||| d) 0 == 0

end Sys2Proof.Machine
end

