-- ==== Sys2Proof/Machine/Operands.lean ====
section
/-! DEFINITION. Where each command finds its operands (30_encoding.md R83), and the bit-exact data-block formats (R84 to
R91, 42_cmac.md R144, 43_ccm_cbcmac.md R162). -/

namespace Sys2Proof.Machine

/-! ### Operands (R83) -/

/-- The block of ENCBLK: `MemRead(DIN, 0, 16)`. -/
def blockOperand (s : State) : Block := blockOf (memReadBytes s.din 0 16)

/-- The message, plaintext or ciphertext: `MemRead(DIN, 0, DLEN)`. -/
def dataOperand (s : State) : List Byte := memReadBytes s.din 0 s.dlen.toNat

/-- The associated data: `MemRead(ABUF, 0, ALEN)`. -/
def aadOperand (s : State) : List Byte := memReadBytes s.abuf 0 s.alen.toNat

/-- MACLEN is one of 4, 6, 8, 10, 12, 14, 16 (R27, R160). -/
def legalTagLength (n : Nat) : Bool := decide (4 ≤ n) && decide (n ≤ 16) && n % 2 == 0

/-! ### CMAC blocks (R90, R144) -/

/-- `pad80(r) = r || 0x80 || zeros(15 - len(r))` (R90). -/
def pad80 (r : List Byte) : Block := blockOf (r ++ [0x80])

/-- The message ends in a complete block (R144). -/
def lastComplete (n : Nat) : Bool := decide (0 < n) && n % 16 == 0

/-- `nb`, the number of blocks of a message of `n` bytes (R144). -/
def cmacBlockCount (n : Nat) : Nat := if lastComplete n then n / 16 else n / 16 + 1

/-- Block `j` of a byte string, `sub(M, 16*j, 16)`. -/
def blockAt (m : List Byte) (j : Nat) : Block := blockOf (m.drop (16 * j))

/-- `last` of R144: the complete last block masked with K1, or the padded one masked with K2. -/
def cmacLastBlock (k1 k2 : Block) (m : List Byte) : Block :=
  if lastComplete m.length then xorBlock (blockAt m (m.length / 16 - 1)) k1
  else xorBlock (pad80 (m.drop (16 * (m.length / 16)))) k2

/-! ### CCM blocks (R84 to R89, R162) -/

/-- The flags byte of B0 (R85): Adata in bit 6, `(M-2)/2` in bits 5:3, `L - 1 = 1` in bits 2:0, bit 7 zero (D25). -/
def b0Flags (a m : Nat) : Byte := BitVec.ofNat 8 (64 * (if 0 < a then 1 else 0) + 8 * ((m - 2) / 2) + 1)

/-- `B0 = flags(a, M) || N || be16(p)` (R84). -/
def b0Block (nonce : Nonce) (m a p : Nat) : Block := blockOf (b0Flags a m :: (nonce.toList ++ be16 p))

/-- The associated-data length header `hdr(a)` (R86). -/
def aadHeader (a : Nat) : List Byte :=
  if a = 0 then []
  else if a < 65280 then be16 a
  else if a < 2 ^ 32 then 0xFF :: 0xFE :: be32 a
  else 0xFF :: 0xFF :: be64 a

/-- `A_i = 0x01 || N || be16(i)` (R89). -/
def counterBlock (nonce : Nonce) (i : Nat) : Block := blockOf (0x01 :: (nonce.toList ++ be16 i))

/-- `nAad` of R162. -/
def aadBlockCount (a : Nat) : Nat := if 0 < a then ceil16 ((aadHeader a).length + a) / 16 else 0

/-- `nMsg` of R162, and `nC` of R182. -/
def dataBlockCount (p : Nat) : Nat := ceil16 p / 16

/-- Block `1 + j` of the authenticated stream, for `j < nAad`: header, then data, then zeros (R162). -/
def aadBlock (aad : List Byte) (j : Nat) : Block :=
  let hdr := aadHeader aad.length
  Vector.ofFn fun q =>
    let t := 16 * j + q.val
    if t < hdr.length then hdr.getD t 0
    else if t < hdr.length + aad.length then aad.getD (t - hdr.length) 0
    else 0x00

/-- Block `1 + nAad + j` of the authenticated stream, for `j < nMsg`: data, then zeros (R162). -/
def msgBlock (p : List Byte) (j : Nat) : Block :=
  Vector.ofFn fun q =>
    let t := 16 * j + q.val
    if t < p.length then p.getD t 0 else 0x00

/-! ### Results -/

/-- The first `n` bytes of `new` over `old`: a result that leaves the other bytes as they were (R24, R49). -/
def overlay (n : Nat) (new old : Block) : Block := Vector.ofFn fun k => if k.val < n then new[k] else old[k]

/-- `first(b, n)` of a block (R9). -/
def firstBytes (b : Block) (n : Nat) : List Byte := b.toList.take n

end Sys2Proof.Machine
end

