-- ==== Sys2Proof/Machine/Stages.lean ====
section
/-! DEFINITION. Arithmetic in GF(2^8), the four pipeline stages, the functions on schedule words and the CMAC doubling,
as functions of byte strings (40_key_expansion.md R101, R102; 41_block_cipher.md R122 to R126; 42_cmac.md R141). -/

namespace Sys2Proof.Machine

/-- Doubling in GF(2^8) modulo 0x11B (R124). -/
def xtime (b : Byte) : Byte := (b <<< 1) ^^^ (if b.getLsbD 7 then 0x1B else 0x00)

/-- Tripling (R124). -/
def mul3 (b : Byte) : Byte := xtime b ^^^ b

/-- The general product, by recursion over `n` bits of the second factor (R124). -/
def gmulBits : Nat → Byte → Byte → Byte
  | 0, _, _ => 0
  | n + 1, a, b => (if b.getLsbD 0 then a else 0) ^^^ gmulBits n (xtime a) (b >>> 1)

/-- `gmul(a, b)` (R124): a byte has 8 bits, after which the second factor is 0. -/
def gmul (a b : Byte) : Byte := gmulBits 8 a b

/-- `x ^ rotl(x,1) ^ rotl(x,2) ^ rotl(x,3) ^ rotl(x,4) ^ 0x63`, the affine map of the equivalent definition of SBOX (R121). -/
def sboxAffine (x : Byte) : Byte :=
  x ^^^ x.rotateLeft 1 ^^^ x.rotateLeft 2 ^^^ x.rotateLeft 3 ^^^ x.rotateLeft 4 ^^^ 0x63

/-- Stage 1: each byte through SBOX (R122). -/
def subBytes (s : Block) : Block := Vector.ofFn fun k => sbox s[k]

/-- Stage 2: row `r` rotated left by `r` columns, `out[r + 4c] = s[r + 4((c + r) mod 4)]` (R123). -/
def shiftRows (s : Block) : Block :=
  Vector.ofFn fun k => s[(k.val % 4) + 4 * ((k.val / 4 + k.val % 4) % 4)]'(by omega)

/-- Row `k` of the product of the circulant (2, 3, 1, 1) with the column `(a0, a1, a2, a3)` (R125). -/
def mixByte (a0 a1 a2 a3 : Byte) : Nat → Byte
  | 0 => xtime a0 ^^^ mul3 a1 ^^^ a2 ^^^ a3
  | 1 => a0 ^^^ xtime a1 ^^^ mul3 a2 ^^^ a3
  | 2 => a0 ^^^ a1 ^^^ xtime a2 ^^^ mul3 a3
  | _ => mul3 a0 ^^^ a1 ^^^ a2 ^^^ xtime a3

/-- Stage 3: the four columns transformed alike, byte `4c + k` from column `c` (R125). -/
def mixColumns (s : Block) : Block :=
  Vector.ofFn fun k =>
    mixByte (s[4 * (k.val / 4)]'(by omega)) (s[4 * (k.val / 4) + 1]'(by omega))
      (s[4 * (k.val / 4) + 2]'(by omega)) (s[4 * (k.val / 4) + 3]'(by omega)) (k.val % 4)

/-- `RotWord`: the first byte goes to the end (R101). -/
def rotWord (w : KeyWord) : KeyWord := Vector.ofFn fun k => w[(k.val + 1) % 4]'(by omega)

/-- `SubWord`: each byte through SBOX (R102). -/
def subWord (w : KeyWord) : KeyWord := Vector.ofFn fun k => sbox w[k]

/-- `T[0] <- T[0] ^ c` (R104). -/
def xorFirst (w : KeyWord) (c : Byte) : KeyWord := Vector.ofFn fun k => if k.val = 0 then w[k] ^^^ c else w[k]

/-- The whole string one bit toward the high end; bit 7 of byte `k+1` becomes bit 0 of byte `k`, 0 enters at the low end (R141). -/
def leftShift (x : Block) : Block :=
  Vector.ofFn fun k => if h : k.val < 15 then (x[k] <<< 1) ||| (x[k.val + 1] >>> 7) else x[k] <<< 1

/-- `DBL` (R141): a shift, with Rb folded in when the high bit was 1 (90_conflicts.md C1). -/
def double (x : Block) : Block :=
  if x[0].getLsbD 7 then xorBlock (leftShift x) blockRb else leftShift x

end Sys2Proof.Machine
end

