-- ==== Sys2Proof/Machine/BlockCipher.lean ====
section
/-! DEFINITION. The block cipher engine: the four stages on register S, the round sequencer ENCCORE and the command
ENCBLK (41_block_cipher.md). -/

namespace Sys2Proof.Machine

/-- Stage 1 on S (R122). -/
def stageSubBytes (s : State) : State := { s with regS := subBytes s.regS }

/-- Stage 2 on S (R123). -/
def stageShiftRows (s : State) : State := { s with regS := shiftRows s.regS }

/-- Stage 3 on S (R125). -/
def stageMixColumns (s : State) : State := { s with regS := mixColumns s.regS }

/-- Stage 4 on S with `RK[RND]` (R126). -/
def stageAddRoundKey (s : State) : State :=
  { s with regS := xorBlock s.regS (roundKey s.rk s.regRND.toNat) }

/-- One full round, RND 1 to 9 (R127). -/
def fullRound (r : Nat) (s : State) : State :=
  stageAddRoundKey (stageMixColumns (stageShiftRows (stageSubBytes { s with regRND := BitVec.ofNat 4 r })))

/-- The final round, RND 10, which omits the column mix (R127). -/
def finalRound (s : State) : State :=
  stageAddRoundKey (stageShiftRows (stageSubBytes { s with regRND := 10 }))

/-- ENCCORE: `S <- E(S)` (R127). PHASE CIPHER is "entered and left inside every ABSORB and CTRBLK" (R187), so the
caller's phase comes back at the end. -/
def encryptCore (s : State) : State :=
  let t := stageAddRoundKey { s with phase := .cipher, regRND := 0 }
  let t := finalRound (forRange 1 9 fullRound t)
  { t with phase := s.phase }

/-- SUBBYTES, internal operation 0x1 (R122). -/
def execSubbytes (s : State) : Host.Outcome State Fault Refusal := .next (stageSubBytes s)

/-- SHIFTROWS, internal operation 0x2 (R123). -/
def execShiftrows (s : State) : Host.Outcome State Fault Refusal := .next (stageShiftRows s)

/-- MIXCOLUMNS, internal operation 0x3 (R125). -/
def execMixcolumns (s : State) : Host.Outcome State Fault Refusal := .next (stageMixColumns s)

/-- ADDROUNDKEY, internal operation 0x4 (R126), with the round number in RND; there are round keys 0 to 10 only (log entry 9). -/
def execAddroundkey (s : State) : Host.Outcome State Fault Refusal :=
  if s.regRND.toNat ≤ 10 then .next (stageAddRoundKey s) else .fault .roundOutOfRange

/-- ENCCORE, internal operation 0x6 (R127), on the block in S, leaving its encryption in S (log entry 7). -/
def execEnccore (s : State) : Host.Outcome State Fault Refusal := .next (encryptCore s)

/-- ENCBLK, command 0x02 (R129). -/
def execEncblk (s : State) : Host.Outcome State Fault Refusal :=
  let s := prologue s
  if s.kvalid = false then .next (raise .notConstructed s)
  else if s.dlen.toNat ≠ Config.blockBytes then .next (raise .invalidBlockSize s)
  else
    let s := encryptCore { s with phase := .cipher, regS := blockOperand s }
    let s := { s with dout := memWriteBytes s.dout 0 s.regS.toList, olen := 16 }
    .next (finish (succeed s))

end Sys2Proof.Machine
end

