-- ==== Sys2Proof/Machine/KeyExpansion.lean ====
section
/-! DEFINITION. The key expansion engine: KSWORD, EXPAND and the command KEYEXP (40_key_expansion.md). -/

namespace Sys2Proof.Machine

/-- KSWORD for the word index in WI: `T` from `W[i-1]`, then `W[i] <- W[i-4] ^ T` (R104). -/
def scheduleWord (s : State) : State :=
  let i := s.regWI.toNat
  let prev := keyWord s.rk (i - 1)
  let t := if i % 4 = 0 then xorFirst (subWord (rotWord prev)) (rcon (i / 4)) else prev
  { s with regT := t, rk := setKeyWord s.rk i (xorWord (keyWord s.rk (i - 4)) t) }

/-- One iteration of EXPAND's loop: WI, then KSWORD (R105). -/
def expandStep (i : Nat) (s : State) : State := scheduleWord { s with regWI := BitVec.ofNat 6 i }

/-- EXPAND(KEY): `W[0..3]` from the key, then KSWORD for WI from 4 to 43, in PHASE EXPAND (R105). -/
def expandKey (key : Block) (s : State) : State :=
  forRange 4 40 expandStep { s with phase := .expand, rk := s.rk.set 0 key }

/-- KSWORD, internal operation 0x5 (R104), on the word index in WI; defined for 4 to 43 only (log entry 9). -/
def execKsword (s : State) : Host.Outcome State Fault Refusal :=
  if 4 ≤ s.regWI.toNat ∧ s.regWI.toNat ≤ 43 then .next (scheduleWord s) else .fault .wordIndexOutOfRange

/-- KEYEXP, command 0x01 (R106). -/
def execKeyexp (s : State) : Host.Outcome State Fault Refusal :=
  let s := prologue s
  if s.klen.toNat ≠ Config.keyBytes then .next (raise .invalidKeySize s)
  else
    let s := expandKey s.keyin s
    let s := { s with k1 := zeroBlock, k2 := zeroBlock, nonce := zeroNonce, mlen := 0 }
    .next (finish (succeed (setValid true false false s)))

end Sys2Proof.Machine
end

