-- ==== Sys2Proof/Machine/Cmac.lean ====
section
/-! DEFINITION. The CMAC subkey derivation unit, the CBC chain step, the tag comparator and the three CMAC commands
(42_cmac.md). -/

namespace Sys2Proof.Machine

/-- One doubling of the block in S (R141; S is where `E` leaves the block DERIVE doubles, log entry 7). -/
def doubleS (s : State) : State := { s with regS := double s.regS }

/-- DERIVE: `Lblk <- E(zeros(16)); K1 <- DBL(Lblk); K2 <- DBL(K1)`, in PHASE SUBKEY (R142). -/
def deriveSubkeys (s : State) : State :=
  let s := doubleS (encryptCore { s with phase := .subkey, regS := zeroBlock })
  let s := doubleS { s with k1 := s.regS }
  { s with k2 := s.regS }

/-- ABSORB of the block in LB: `X <- E(X ^ LB)` (R146). -/
def absorbLB (s : State) : State :=
  let s := encryptCore { s with regS := xorBlock s.regX s.regLB }
  { s with regX := s.regS }

/-- One iteration of CMAC's loop over the complete blocks before the last (R145). -/
def cmacStep (m : List Byte) (j : Nat) (s : State) : State :=
  absorbLB { s with regBI := BitVec.ofNat 64 j, regLB := blockAt m j }

/-- `CMAC(M)`, left in X (R145): PHASE MAC_MSG, then MAC_LAST. -/
def runCmac (m : List Byte) (s : State) : State :=
  let s := { s with phase := .macMsg, regX := zeroBlock }
  let s := forRange 0 (cmacBlockCount m.length - 1) (cmacStep m) s
  absorbLB { s with phase := .macLast, regLB := cmacLastBlock s.k1 s.k2 m }

/-- TAGCMP of the first `n` bytes of LB with TAGIN and TLEN; the verdict goes to OK (R148, R149; log entry 7). -/
def compareTag (n : Nat) (s : State) : State :=
  { s with ok := tagsMatch (firstBytes s.regLB n) s.tagin.toList s.tlen.toNat }

/-- The length of the expected tag when TAGCMP runs alone: MLEN under a CCM binding, else 16 (R145, R184; log entry 8). -/
def expectedTagLength (s : State) : Nat := if s.ccmvalid then s.mlen.toNat else 16

/-- DBL, internal operation 0x7 (R141). -/
def execDbl (s : State) : Host.Outcome State Fault Refusal := .next (doubleS s)

/-- ABSORB, internal operation 0x8 (R146). -/
def execAbsorb (s : State) : Host.Outcome State Fault Refusal := .next (absorbLB s)

/-- TAGCMP, internal operation 0xA (R148). -/
def execTagcmp (s : State) : Host.Outcome State Fault Refusal := .next (compareTag (expectedTagLength s) s)

/-- CMACINIT, command 0x03 (R143). -/
def execCmacinit (s : State) : Host.Outcome State Fault Refusal :=
  let s := prologue s
  if s.klen.toNat ≠ Config.keyBytes then .next (raise .invalidKeySize s)
  else
    let s := deriveSubkeys (expandKey s.keyin s)
    let s := { s with nonce := zeroNonce, mlen := 0 }
    .next (finish (succeed (setValid true true false s)))

/-- CMACGEN, command 0x04 (R147). -/
def execCmacgen (s : State) : Host.Outcome State Fault Refusal :=
  let s := prologue s
  if s.skvalid = false then .next (raise .notConstructed s)
  else if Config.dbufCap < s.dlen.toNat then .next (raise .bufferCapacity s)
  else
    let s := runCmac (dataOperand s) s
    .next (finish (succeed { s with tagout := s.regX, tolen := 16 }))

/-- CMACVFY, command 0x05 (R149): a tag that does not match is a verdict, not an error. -/
def execCmacvfy (s : State) : Host.Outcome State Fault Refusal :=
  let s := prologue s
  if s.skvalid = false then .next (raise .notConstructed s)
  else if Config.dbufCap < s.dlen.toNat then .next (raise .bufferCapacity s)
  else
    let s := runCmac (dataOperand s) s
    .next (finish (compareTag 16 { s with phase := .compare, regLB := s.regX }))

end Sys2Proof.Machine
end

