-- ==== Sys2Proof/Machine/Ccm.lean ====
section
/-! DEFINITION. CCM: construction, the CBC-MAC over the authenticated stream, counter mode, and the commands CCMINIT,
CCMENC and CCMDEC (43_ccm_cbcmac.md, 44_ccm_ctr.md). -/

namespace Sys2Proof.Machine

/-! ### The CBC-MAC accumulator over the authenticated stream (R162, R163) -/

/-- ABSORB of stream block `i` with `1 <= i <= nAad` (R163). -/
def macAadStep (aad : List Byte) (i : Nat) (s : State) : State :=
  absorbLB { s with regBI := BitVec.ofNat 64 i, regLB := aadBlock aad (i - 1) }

/-- ABSORB of stream block `i` with `1 + nAad <= i <= nAad + nMsg` (R163). -/
def macMsgStep (nAad : Nat) (p : List Byte) (i : Nat) (s : State) : State :=
  absorbLB { s with regBI := BitVec.ofNat 64 i, regLB := msgBlock p (i - 1 - nAad) }

/-- `CBCMAC(AAD, P)`, left in X: PHASES MAC_B0, MAC_AAD, MAC_MSG (R163). -/
def runCbcMac (aad p : List Byte) (s : State) : State :=
  let nAad := aadBlockCount aad.length
  let s := absorbLB
    { s with
      phase := .macB0, regX := zeroBlock, regBI := 0
      regLB := b0Block s.nonce s.mlen.toNat aad.length p.length }
  let s := forRange 1 nAad (macAadStep aad) { s with phase := .macAad }
  forRange (1 + nAad) (dataBlockCount p.length) (macMsgStep nAad p) { s with phase := .macMsg }

/-! ### Counter mode (R180 to R183) -/

/-- CTRBLK for the counter in CTR: `A <- 0x01 || NONCE || be16(CTR); KS <- E(A)` (R181). -/
def keystreamBlock (s : State) : State :=
  let a := counterBlock s.nonce s.regCTR.toNat
  let s := encryptCore { s with regA := a, regS := a }
  { s with regKS := s.regS }

/-- One chunk of CTRXOR: counter `j + 1`, and only the needed prefix of the keystream block (R182). -/
def ctrStep (d : List Byte) (j : Nat) (acc : State × List Byte) : State × List Byte :=
  let s := keystreamBlock { acc.1 with regCTR := BitVec.ofNat 16 (j + 1) }
  (s, acc.2 ++ List.zipWith (fun x y => x ^^^ y) ((d.drop (16 * j)).take 16) s.regKS.toList)

/-- `CTRXOR(D)` in PHASE CTR_DATA, with the output string (R182). -/
def runCtr (d : List Byte) (s : State) : State × List Byte :=
  forRange 0 (dataBlockCount d.length) (ctrStep d) ({ s with phase := .ctrData }, [])

/-- `S0 <- CTRBLK(0)` in PHASE CTR_S0 (R183). -/
def runTagMask (s : State) : State :=
  let s := keystreamBlock { s with phase := .ctrS0, regCTR := 0 }
  { s with regS0 := s.regKS }

/-- PHASE TAG: `Tm ^ S0`, whose first MLEN bytes are the tag (R184), put into LB (log entry 7). -/
def formTag (s : State) : State := { s with phase := .tag, regLB := xorBlock s.regX s.regS0 }

/-! ### The instructions -/

/-- CTRBLK, internal operation 0x9 (R181), for the counter in CTR (log entry 7). -/
def execCtrblk (s : State) : Host.Outcome State Fault Refusal := .next (keystreamBlock s)

/-- CCMINIT, command 0x06 (R160): tag length, nonce length and key length checked in this order. -/
def execCcminit (s : State) : Host.Outcome State Fault Refusal :=
  let s := prologue s
  if legalTagLength s.maclen.toNat = false then .next (raise .invalidTagLength s)
  else if s.nlen.toNat ≠ Config.nonceBytes then .next (raise .invalidNonceLength s)
  else if s.klen.toNat ≠ Config.keyBytes then .next (raise .invalidKeySize s)
  else
    let s := expandKey s.keyin s
    let s := { s with nonce := s.noncein, mlen := s.maclen.setWidth 5, k1 := zeroBlock, k2 := zeroBlock }
    .next (finish (succeed (setValid true false true s)))

/-- CCMENC, command 0x07 (R185). -/
def execCcmenc (s : State) : Host.Outcome State Fault Refusal :=
  let s := prologue s
  if s.ccmvalid = false then .next (raise .notConstructed s)
  else if Config.messageLimit ≤ s.dlen.toNat then .next (raise .plaintextTooLong s)
  else if Config.abufCap < s.alen.toNat then .next (raise .bufferCapacity s)
  else
    let p := dataOperand s
    let s := runTagMask (runCbcMac (aadOperand s) p s)
    let (s, c) := runCtr p s
    let s := formTag { s with dout := memWriteBytes s.dout 0 c }
    let s := { s with tagout := overlay s.mlen.toNat s.regLB s.tagout }
    .next (finish (succeed { s with olen := s.dlen, tolen := s.mlen.setWidth 8 }))

/-- CCMDEC, command 0x08 (R186): the plaintext first, the tag second; on a mismatch zeros over the recovered bytes. -/
def execCcmdec (s : State) : Host.Outcome State Fault Refusal :=
  let s := prologue s
  if s.ccmvalid = false then .next (raise .notConstructed s)
  else if s.tlen.toNat ≠ s.mlen.toNat then .next (raise .invalidTagLength s)
  else if Config.messageLimit ≤ s.dlen.toNat then .next (raise .plaintextTooLong s)
  else if Config.abufCap < s.alen.toNat then .next (raise .bufferCapacity s)
  else
    let aad := aadOperand s
    let (s, p) := runCtr (dataOperand s) s
    let s := { s with dout := memWriteBytes s.dout 0 p }
    let s := formTag (runTagMask (runCbcMac aad p s))
    let s := compareTag s.mlen.toNat { s with phase := .compare }
    if s.ok then .next (finish { s with olen := s.dlen })
    else
      .next (raise .authenticationFailure
        { s with dout := memWriteBytes s.dout 0 (List.replicate s.dlen.toNat 0) })

end Sys2Proof.Machine
end

