-- ==== Sys2Proof/Machine/System.lean ====
section
/-! DEFINITION. The system command CLEAR (45_system.md R195) and what a write of a reserved code to CMD does
(30_encoding.md R82, 60_exceptions.md R209). -/

namespace Sys2Proof.Machine

/-- CLEAR, command 0x09 (R195): the prologue, then everything to its reset value; no epilogue, so DONE stays 0. -/
def execClear (s : State) : Host.Outcome State Fault Refusal := .next (resetAll (prologue s))

/-- A write of a reserved code to CMD ends in UnknownCommand and changes nothing else (R82, R209). -/
def unknownCommand (s : State) : Host.Outcome State Fault Refusal := .next (raise .unknownCommand (prologue s))

end Sys2Proof.Machine
end

