-- ==== Sys2Proof/Machine/Dispatch.lean ====
section
/-! DEFINITION. One arm per instruction, each one call of its meaning. -/

namespace Sys2Proof.Machine

def exec (i : Instr) (s : State) : Host.Outcome State Fault Refusal :=
  match i with
  | .keyexp => Sys2Proof.Machine.execKeyexp s
  | .encblk => Sys2Proof.Machine.execEncblk s
  | .cmacinit => Sys2Proof.Machine.execCmacinit s
  | .cmacgen => Sys2Proof.Machine.execCmacgen s
  | .cmacvfy => Sys2Proof.Machine.execCmacvfy s
  | .ccminit => Sys2Proof.Machine.execCcminit s
  | .ccmenc => Sys2Proof.Machine.execCcmenc s
  | .ccmdec => Sys2Proof.Machine.execCcmdec s
  | .clear => Sys2Proof.Machine.execClear s
  | .subbytes => Sys2Proof.Machine.execSubbytes s
  | .shiftrows => Sys2Proof.Machine.execShiftrows s
  | .mixcolumns => Sys2Proof.Machine.execMixcolumns s
  | .addroundkey => Sys2Proof.Machine.execAddroundkey s
  | .ksword => Sys2Proof.Machine.execKsword s
  | .enccore => Sys2Proof.Machine.execEnccore s
  | .dbl => Sys2Proof.Machine.execDbl s
  | .absorb => Sys2Proof.Machine.execAbsorb s
  | .ctrblk => Sys2Proof.Machine.execCtrblk s
  | .tagcmp => Sys2Proof.Machine.execTagcmp s

end Sys2Proof.Machine
end

