-- ==== Sys2Proof/Machine/HostAccess.lean ====
section
/-! DEFINITION. What a host access does: the register map (10_state.md R36, R37), buffer bytes (20_memory.md R61 to R63),
issuing a command (R33), reset (70_reset_and_hazards.md R230), after the table of 45_system.md R196. -/

namespace Sys2Proof.Machine

/-- The register a register number names (R36). -/
inductive Reg where
  | cmd
  | status
  | klen
  | nlen
  | maclen
  | tlen
  | alen
  | dlen
  | olen
  | tolen
  | keyin (i : Fin 16)
  | noncein (i : Fin 13)
  | tagin (i : Fin 16)
  | tagout (i : Fin 16)
  | reserved
  deriving DecidableEq, Repr

/-- The numbers 16 to 79: the byte-array registers, one number per byte (R36). -/
def byteRegOf (n : Nat) : Reg :=
  if h : 16 ≤ n ∧ n < 32 then .keyin ⟨n - 16, by omega⟩
  else if h : 32 ≤ n ∧ n < 45 then .noncein ⟨n - 32, by omega⟩
  else if h : 48 ≤ n ∧ n < 64 then .tagin ⟨n - 48, by omega⟩
  else if h : 64 ≤ n ∧ n < 80 then .tagout ⟨n - 64, by omega⟩
  else .reserved

/-- The register space REG (R36). -/
def regOf (n : Nat) : Reg :=
  match n with
  | 0 => .cmd
  | 1 => .status
  | 2 => .klen
  | 3 => .nlen
  | 4 => .maclen
  | 5 => .tlen
  | 6 => .alen
  | 7 => .dlen
  | 8 => .olen
  | 9 => .tolen
  | n => byteRegOf n

/-- The number of a register; a reserved number has no name to go back from, and 10 stands for them (R36). -/
def regNumber : Reg → Nat
  | .cmd => 0
  | .status => 1
  | .klen => 2
  | .nlen => 3
  | .maclen => 4
  | .tlen => 5
  | .alen => 6
  | .dlen => 7
  | .olen => 8
  | .tolen => 9
  | .keyin i => 16 + i.val
  | .noncein i => 32 + i.val
  | .tagin i => 48 + i.val
  | .tagout i => 64 + i.val
  | .reserved => 10

/-- Width in bits (R36); a reserved number has none. -/
def regWidth : Reg → Nat
  | .cmd => 8
  | .status => 16
  | .klen => 32
  | .nlen => 32
  | .maclen => 32
  | .tlen => 32
  | .alen => 64
  | .dlen => 64
  | .olen => 64
  | .tolen => 8
  | .keyin _ => 8
  | .noncein _ => 8
  | .tagin _ => 8
  | .tagout _ => 8
  | .reserved => 0

/-- The access column of R36 holds W. -/
def hostWritable : Reg → Bool
  | .cmd => true
  | .status => false
  | .klen => true
  | .nlen => true
  | .maclen => true
  | .tlen => true
  | .alen => true
  | .dlen => true
  | .olen => false
  | .tolen => false
  | .keyin _ => true
  | .noncein _ => true
  | .tagin _ => true
  | .tagout _ => false
  | .reserved => false

/-- What a host read returns (R36, R37): a register without R reads 0. No read has a side effect on the engine. -/
def readRegister (r : Reg) (s : State) : BitVec 64 :=
  match r with
  | .cmd => 0
  | .status => (statusWord s).setWidth 64
  | .klen => s.klen.setWidth 64
  | .nlen => s.nlen.setWidth 64
  | .maclen => s.maclen.setWidth 64
  | .tlen => s.tlen.setWidth 64
  | .alen => s.alen
  | .dlen => s.dlen
  | .olen => s.olen
  | .tolen => s.tolen.setWidth 64
  | .keyin _ => 0
  | .noncein i => (s.noncein[i]).setWidth 64
  | .tagin i => (s.tagin[i]).setWidth 64
  | .tagout i => (s.tagout[i]).setWidth 64
  | .reserved => 0

/-- What a host write to a register other than CMD stores (R36, R37): a register without W ignores it. -/
def writeRegister (r : Reg) (v : BitVec 64) (s : State) : State :=
  match r with
  | .cmd => s
  | .status => s
  | .klen => { s with klen := v.setWidth 32 }
  | .nlen => { s with nlen := v.setWidth 32 }
  | .maclen => { s with maclen := v.setWidth 32 }
  | .tlen => { s with tlen := v.setWidth 32 }
  | .alen => { s with alen := v }
  | .dlen => { s with dlen := v }
  | .olen => s
  | .tolen => s
  | .keyin i => { s with keyin := s.keyin.set i.val (v.setWidth 8) }
  | .noncein i => { s with noncein := s.noncein.set i.val (v.setWidth 8) }
  | .tagin i => { s with tagin := s.tagin.set i.val (v.setWidth 8) }
  | .tagout _ => s
  | .reserved => s

/-- A value the register can be written with: it fits the width (R37); a write that is ignored may carry any. -/
def fitsRegister (r : Reg) (v : BitVec 64) : Bool := !hostWritable r || decide (v.toNat < 2 ^ regWidth r)

/-- A buffer's bytes (R61 to R63). -/
def bufferOf (b : Buffer) (s : State) : Memory :=
  match b with
  | .abuf => s.abuf
  | .din => s.din
  | .dout => s.dout

/-- A host write of one buffer byte; a write to DOUT is ignored (R61 to R63). -/
def putByte (b : Buffer) (addr : Nat) (v : Byte) (s : State) : State :=
  match b with
  | .abuf => { s with abuf := memWrite s.abuf addr v }
  | .din => { s with din := memWrite s.din addr v }
  | .dout => s

/-- The host gets a value back. -/
def answer (v : BitVec 64) (s : State) : State := { s with got := v :: s.got }

/-- A write of `c` to CMD: the engine executes the command whose code is `c` as one atomic step, or ends in
UnknownCommand (R33, R71, R82). -/
def issueCommand (c : Byte) (s : State) : Host.Outcome State Fault Refusal :=
  match decodeCommand c with
  | .ok i => exec i s
  | .error _ => unknownCommand s

/-- A host write of `v` to a register (R33, R37). -/
def hostWrite (r : Reg) (v : BitVec 64) (s : State) : Host.Outcome State Fault Refusal :=
  if fitsRegister r v = false then .refused .hostValueTooWide
  else if r = .cmd then issueCommand (v.setWidth 8) s
  else .next (writeRegister r v s)

/-- One host access (R196), already taken from the host's list. -/
def hostAccess (a : Access) (s : State) : Host.Outcome State Fault Refusal :=
  match a with
  | .writeReg n v => hostWrite (regOf n) v s
  | .readReg n => .next (answer (readRegister (regOf n) s) s)
  | .put b addr v => if addr < capacity b then .next (putByte b addr v s) else .fault .noSuchBufferByte
  | .get b addr =>
    if addr < capacity b then .next (answer ((memRead (bufferOf b s) addr).setWidth 64) s)
    else .fault .noSuchBufferByte
  | .reset => .next (resetAll s)

/-- The host's next access and the state without it: what the machine has in place of an instruction fetch (R43, R73). -/
def nextAccess (s : State) : Option (Access × State) :=
  match s.host with
  | [] => none
  | a :: rest => some (a, { s with host := rest })

/-- The host access that stands for a table word of `nbits` bits: a command byte is a write to CMD; a label has no
access, for no interface carries it (R94, log entry 13). -/
def accessOfTableWord (nbits w : Nat) : List Access :=
  match encodedOfTableWord nbits w with
  | .cmd8 c => [.writeReg 0 (c.setWidth 64)]
  | .internal4 _ => []

end Sys2Proof.Machine
end

