-- ==== Sys2Proof/Machine/Step.lean ====
section
/-! DEFINITION. One step: one host access, a write to CMD performing its whole command (70_reset_and_hazards.md R233,
20_memory.md R71). With no access pending nothing happens: "nothing executes on its own after reset" (R232). -/

namespace Sys2Proof.Machine

/-- One step of the machine. -/
def step (s : State) : Host.Outcome State Fault Refusal :=
  match nextAccess s with
  | none => .next s
  | some (a, t) => hostAccess a t

/-- `s` with the write to CMD of the table word `w` as the host's very next access. -/
def State.withFetchWord (s : State) (nbits w : Nat) : State :=
  { s with host := accessOfTableWord nbits w ++ s.host }

end Sys2Proof.Machine
end

