-- ==== Sys2Proof/Machine/HostSyntax.lean ====
section
/-! DEFINITION. Host programs: the lines of 30_encoding.md R92, the pseudo-instructions of R93 with their expansions, the source's entry points
as sequences (R93), and a host that runs a program against the machine, one access at a time. -/

namespace Sys2Proof.Machine

/-- A line of a host program: the seven primitive lines of R92, then the pseudo-instructions of R93. -/
inductive HostLine where
  /-- `WR <reg>, <n>`. -/
  | wr (r : Reg) (n : Nat)
  /-- `WB <reg>[<i>], <byte>`: `r` names the byte register. -/
  | wb (r : Reg) (b : Byte)
  /-- `PUT <buf>[<addr>], <byte>`. -/
  | put (buf : Buffer) (addr : Nat) (b : Byte)
  /-- `CMD <mnemonic>`. -/
  | cmd (i : Instr)
  /-- `RD <reg>`. -/
  | rd (r : Reg)
  /-- `RB <reg>[<i>]`: `r` names the byte register. -/
  | rb (r : Reg)
  /-- `GET <buf>[<addr>]`. -/
  | get (buf : Buffer) (addr : Nat)
  /-- `SETKEY <hex>`. -/
  | setKey (h : List Byte)
  /-- `SETNONCE <hex>`. -/
  | setNonce (h : List Byte)
  /-- `SETTAG <hex>`. -/
  | setTag (h : List Byte)
  /-- `SETDATA <hex>`. -/
  | setData (h : List Byte)
  /-- `SETAAD <hex>`. -/
  | setAad (h : List Byte)
  /-- `SETMACLEN <n>`. -/
  | setMacLen (n : Nat)
  /-- `GETDATA`. -/
  | getData
  /-- `GETTAG`. -/
  | getTag
  /-- `WAIT`. -/
  | wait
  deriving DecidableEq, Repr

/-! ### Primitive lines (R92) -/

/-- The host access of a primitive line; a pseudo-instruction is none, and neither is CMD of an internal operation, which R92 does not
have ("one of rule R81"). -/
def lineAccess : HostLine → Option Access
  | .wr r n => some (.writeReg (regNumber r) (BitVec.ofNat 64 n))
  | .wb r b => some (.writeReg (regNumber r) (b.setWidth 64))
  | .put buf addr b => some (.put buf addr b)
  | .cmd i =>
    match encode i with
    | .cmd8 c => some (.writeReg (regNumber .cmd) (c.setWidth 64))
    | .internal4 _ => none
  | .rd r => some (.readReg (regNumber r))
  | .rb r => some (.readReg (regNumber r))
  | .get buf addr => some (.get buf addr)
  | .setKey _ => none
  | .setNonce _ => none
  | .setTag _ => none
  | .setData _ => none
  | .setAad _ => none
  | .setMacLen _ => none
  | .getData => none
  | .getTag => none
  | .wait => none

/-- The number a WR line writes fits the widest register; no host access carries a larger one (R37, log entry 6). -/
def lineFits : HostLine → Bool
  | .wr _ n => decide (n < 2 ^ 64)
  | _ => true

/-! ### Expansions (R93) -/

/-- `WB` of the first `size` bytes of `h` into the byte registers numbered from `base`. -/
def writeByteLines (base size : Nat) (h : List Byte) : List HostLine := (h.take size).mapIdx fun k b => .wb (regOf (base + k)) b

/-- `PUT <buf>[k], h[k]` for every byte of `h`. -/
def putLines (buf : Buffer) (h : List Byte) : List HostLine := h.mapIdx fun k b => .put buf k b

/-- DONE is 1 and BUSY is 0 in a value read from STATUS (R34). -/
def showsDone (status : BitVec 64) : Bool := status.getLsbD 0 && !status.getLsbD 1

/-- The expansion of a pseudo-instruction that a host reaches at state `s`. GETDATA and GETTAG read as many bytes as their own first read
returns, and WAIT goes on after a read that does not show DONE 1 and BUSY 0; a read has no side effect and no other agent acts in between
(R69, R233), so what the first read returns is what it returns at `s`. A primitive line is its own expansion; CMD of an internal operation
is no line and expands to none (DESIGN CHOICE, log entry 19, safe). -/
def expandLine (l : HostLine) (s : State) : List HostLine :=
  match l with
  | .wr r n => [.wr r n]
  | .wb r b => [.wb r b]
  | .put buf addr b => [.put buf addr b]
  | .cmd i => if i.hostVisible then [.cmd i] else []
  | .rd r => [.rd r]
  | .rb r => [.rb r]
  | .get buf addr => [.get buf addr]
  | .setKey h => writeByteLines 16 16 h ++ [.wr .klen h.length]
  | .setNonce h => writeByteLines 32 13 h ++ [.wr .nlen h.length]
  | .setTag h => writeByteLines 48 16 h ++ [.wr .tlen h.length]
  | .setData h => putLines .din h ++ [.wr .dlen h.length]
  | .setAad h => putLines .abuf h ++ [.wr .alen h.length]
  | .setMacLen n => [.wr .maclen n]
  | .getData => .rd .olen :: (List.range (readRegister .olen s).toNat).map (.get .dout)
  | .getTag => .rd .tolen :: (List.range (readRegister .tolen s).toNat).map fun k => .rb (regOf (64 + k))
  | .wait => .rd .status :: (if showsDone (readRegister .status s) then [] else [.wait])

/-! ### A host that runs a program -/

/-- The host runs its program for at most `moves` moves: an access, or the expansion of a pseudo-instruction at the state it is reached in.
The values it reads are in `got`. The bound and the moves are the model's (DESIGN CHOICE, log entry 19, safe). -/
def runHost : Nat → List HostLine → State → Host.Outcome State Fault Refusal
  | 0, _, s => .next s
  | _ + 1, [], s => .next s
  | moves + 1, l :: rest, s =>
    if lineFits l = false then .refused .hostValueTooWide
    else
      match lineAccess l with
      | some a =>
        match hostAccess a s with
        | .next t => runHost moves rest t
        | .fault e => .fault e
        | .refused e => .refused e
      | none => runHost moves (expandLine l s ++ rest) s

/-! ### The source's entry points (R93) -/

/-- `BlockCipher::new(key)`. -/
def blockCipherNew (key : List Byte) : List HostLine := [.setKey key, .cmd .keyexp]

/-- `encrypt_block(block)`. -/
def encryptBlockCall (block : List Byte) : List HostLine := [.setData block, .cmd .encblk, .getData]

/-- `Cmac::new(key)`. -/
def cmacNew (key : List Byte) : List HostLine := [.setKey key, .cmd .cmacinit]

/-- `generate(message)`. -/
def cmacGenerate (message : List Byte) : List HostLine := [.setData message, .cmd .cmacgen, .getTag]

/-- `verify(message, tag)`; the answer is bit OK of the last value read. -/
def cmacVerify (message tag : List Byte) : List HostLine :=
  [.setData message, .setTag tag, .cmd .cmacvfy, .rd .status]

/-- `Ccm::new(key, nonce, mac_len)`. -/
def ccmNew (key nonce : List Byte) (macLen : Nat) : List HostLine :=
  [.setKey key, .setNonce nonce, .setMacLen macLen, .cmd .ccminit]

/-- `encrypt(plaintext, aad)`. -/
def ccmEncrypt (plaintext aad : List Byte) : List HostLine :=
  [.setData plaintext, .setAad aad, .cmd .ccmenc, .getData, .getTag]

/-- `decrypt(ciphertext, tag, aad)`. -/
def ccmDecrypt (ciphertext tag aad : List Byte) : List HostLine :=
  [.setData ciphertext, .setTag tag, .setAad aad, .cmd .ccmdec, .rd .status, .getData]

/-- The sequence with "After every `CMD` the caller reads STATUS" (R93): an RD STATUS after each CMD line that has none yet. -/
def readingStatus : List HostLine → List HostLine
  | [] => []
  | .cmd i :: rest =>
    if rest.head? = some (.rd .status) then .cmd i :: readingStatus rest
    else .cmd i :: .rd .status :: readingStatus rest
  | l :: rest => l :: readingStatus rest

/-- The error of a code of R201, none for 0 and for the codes never produced. -/
def errorOfCode (n : BitVec 4) : Option ErrCode :=
  [ErrCode.invalidKeySize, .invalidBlockSize, .invalidNonceLength, .invalidTagLength, .plaintextTooLong,
    .authenticationFailure, .notConstructed, .unknownCommand, .bufferCapacity].find? fun e => errNumber e == n

/-- ERR in a value read from STATUS, "as the source's error variant" (R93, R201). -/
def errorVariant (status : BitVec 64) : Option ErrCode := errorOfCode (status.extractLsb' 8 4)

/-- Bit OK in a value read from STATUS: the answer of `verify` (R93). -/
def verdict (status : BitVec 64) : Bool := status.getLsbD 5

end Sys2Proof.Machine
end

