-- ==== Sys2Proof/Machine/Reference.lean ====
section
/-! DEFINITION. The algorithms as pure functions of keys and byte strings, in the words of the rules. The meanings do not
use them: a command runs its sequencer over the working registers, and claims say that the two agree (41 R130, 44 R187). -/

namespace Sys2Proof.Machine

/-! ### Key schedule -/

/-- Column `c` of a block, the word `W[4n + c]` of round key `n` (R100, R120); `c` is 0 to 3. -/
def column (b : Block) (c : Nat) : KeyWord := Vector.ofFn fun k => b[4 * (c % 4) + k.val]'(by omega)

/-- `w0 || w1 || w2 || w3`. -/
def joinWords (w0 w1 w2 w3 : KeyWord) : Block :=
  Vector.ofFn fun k =>
    (if k.val < 4 then w0 else if k.val < 8 then w1 else if k.val < 12 then w2 else w3)[k.val % 4]'(by omega)

/-- Round key `j` from round key `j - 1`: four steps of R104, the first with the rotation, SBOX and `RCON[j]`. -/
def nextRoundKey (j : Nat) (b : Block) : Block :=
  let w0 := xorWord (column b 0) (xorFirst (subWord (rotWord (column b 3))) (rcon j))
  let w1 := xorWord (column b 1) w0
  let w2 := xorWord (column b 2) w1
  let w3 := xorWord (column b 3) w2
  joinWords w0 w1 w2 w3

/-- Round key `r` of a key (R105). -/
def roundKeyOf (key : Block) : Nat → Block
  | 0 => key
  | r + 1 => nextRoundKey (r + 1) (roundKeyOf key r)

/-- EXPAND as a function of the key alone (R105). -/
def keySchedule (key : Block) : RoundKeys := Vector.ofFn fun r => roundKeyOf key r.val

/-- The word KSWORD makes for index `i` from the word before and the word four back (R104). -/
def nextWord (i : Nat) (prev back : KeyWord) : KeyWord :=
  xorWord back (if i % 4 = 0 then xorFirst (subWord (rotWord prev)) (rcon (i / 4)) else prev)

/-- Byte `k` of a round-key store seen as a flat array, `RKB[16r + j] = RK[r][j]` (R108). -/
def flatByte (rk : RoundKeys) (k : Nat) : Byte := (roundKey rk (k / 16))[k % 16]'(by omega)

/-! ### The block cipher -/

/-- One full round with round key `k` (R127). -/
def cipherRound (k s : Block) : Block := xorBlock (mixColumns (shiftRows (subBytes s))) k

/-- `E(B)` under a round-key store (R127). -/
def encryptBlock (rk : RoundKeys) (b : Block) : Block :=
  let s := (List.range' 1 9).foldl (fun s r => cipherRound (roundKey rk r) s) (xorBlock b (roundKey rk 0))
  xorBlock (shiftRows (subBytes s)) (roundKey rk 10)

/-- One pass through the four-stage pipeline with the stages enabled as the table of R128 says. -/
def pipelinePass (rk : RoundKeys) (s : Block) (n : Nat) : Block :=
  let s := if 1 ≤ n then subBytes s else s
  let s := if 1 ≤ n then shiftRows s else s
  let s := if 1 ≤ n ∧ n ≤ 9 then mixColumns s else s
  xorBlock s (roundKey rk n)

/-! ### The CBC chain and CMAC -/

/-- `X_m` of a chain over blocks, from `X_0 = zeros(16)` (R146). -/
def cbcChain (rk : RoundKeys) (blocks : List Block) : Block :=
  blocks.foldl (fun x b => encryptBlock rk (xorBlock x b)) zeroBlock

/-- K1 of DERIVE (R142). -/
def subkey1 (rk : RoundKeys) : Block := double (encryptBlock rk zeroBlock)

/-- K2 of DERIVE (R142). -/
def subkey2 (rk : RoundKeys) : Block := double (subkey1 rk)

/-- The blocks CMAC absorbs: the complete ones before the last, then the masked last block (R144). -/
def cmacBlocks (k1 k2 : Block) (m : List Byte) : List Block :=
  (List.range (cmacBlockCount m.length - 1)).map (blockAt m) ++ [cmacLastBlock k1 k2 m]

/-- `CMAC(M)` (R145). -/
def cmacTag (rk : RoundKeys) (k1 k2 : Block) (m : List Byte) : Block := cbcChain rk (cmacBlocks k1 k2 m)

/-! ### CCM -/

/-- The formatted associated-data stream (R87). -/
def fmtA (aad : List Byte) : List Byte :=
  if aad = [] then []
  else
    let hdr := aadHeader aad.length
    hdr ++ aad ++ List.replicate (pad16 (hdr.length + aad.length)) 0

/-- The formatted message stream (R88). -/
def fmtP (p : List Byte) : List Byte := p ++ List.replicate (pad16 p.length) 0

/-- `B0 || fmtA(AAD) || fmtP(P)` (R91). -/
def ccmStream (nonce : Nonce) (m : Nat) (aad p : List Byte) : List Byte :=
  (b0Block nonce m aad.length p.length).toList ++ fmtA aad ++ fmtP p

/-- A byte string of whole blocks, cut into them. -/
def splitBlocks (bs : List Byte) : List Block := (List.range (bs.length / 16)).map (blockAt bs)

/-- `CBCMAC(AAD, P)`: the chain over the full authenticated stream, with no final subkey (R163). -/
def cbcMac (rk : RoundKeys) (nonce : Nonce) (m : Nat) (aad p : List Byte) : Block :=
  cbcChain rk (splitBlocks (ccmStream nonce m aad p))

/-- The keystream block `S_i = E(A_i)` (R181). -/
def keystream (rk : RoundKeys) (nonce : Nonce) (i : Nat) : Block := encryptBlock rk (counterBlock nonce i)

/-- `CTRXOR(D)`: byte `t` of the output is `D[t] ^ S_(1 + t div 16)[t mod 16]` (R182). -/
def ctrXor (rk : RoundKeys) (nonce : Nonce) (d : List Byte) : List Byte :=
  d.mapIdx fun t b => b ^^^ (keystream rk nonce (1 + t / 16))[t % 16]'(by omega)

/-- `CBCMAC(AAD, P) ^ S0`, of which the tag is the first MLEN bytes (R184). -/
def ccmMaskedMac (rk : RoundKeys) (nonce : Nonce) (m : Nat) (aad p : List Byte) : Block :=
  xorBlock (cbcMac rk nonce m aad p) (keystream rk nonce 0)

/-- `TAG(AAD, P)` (R184). -/
def ccmTag (rk : RoundKeys) (nonce : Nonce) (m : Nat) (aad p : List Byte) : List Byte :=
  firstBytes (ccmMaskedMac rk nonce m aad p) m

end Sys2Proof.Machine
end

