-- ==== Sys2Proof/Machine/Checks.lean ====
section
/-! DEFINITION. The check order of every command as a table (60_exceptions.md R211), for claims and for the work counts. The meanings make
their checks themselves; a claim says that the two agree. -/

namespace Sys2Proof.Machine

/-- The first of several checks that fails. -/
def firstFailing : List (Bool × ErrCode) → Option ErrCode
  | [] => none
  | (fails, e) :: rest => if fails then some e else firstFailing rest

/-- The checks a command makes before it reads or writes anything, in the order of R211 (AuthenticationFailure, which needs the
whole computation, is not among them). -/
def checks (i : Instr) (s : State) : List (Bool × ErrCode) :=
  match i with
  | .keyexp => [(s.klen ≠ 16, .invalidKeySize)]
  | .encblk => [(!s.kvalid, .notConstructed), (s.dlen ≠ 16, .invalidBlockSize)]
  | .cmacinit => [(s.klen ≠ 16, .invalidKeySize)]
  | .cmacgen => [(!s.skvalid, .notConstructed), (Config.dbufCap < s.dlen.toNat, .bufferCapacity)]
  | .cmacvfy => [(!s.skvalid, .notConstructed), (Config.dbufCap < s.dlen.toNat, .bufferCapacity)]
  | .ccminit =>
    [(s.maclen.toNat < 4 ∨ 16 < s.maclen.toNat ∨ s.maclen.toNat % 2 ≠ 0, .invalidTagLength),
      (s.nlen ≠ 13, .invalidNonceLength), (s.klen ≠ 16, .invalidKeySize)]
  | .ccmenc =>
    [(!s.ccmvalid, .notConstructed), (65536 ≤ s.dlen.toNat, .plaintextTooLong),
      (Config.abufCap < s.alen.toNat, .bufferCapacity)]
  | .ccmdec =>
    [(!s.ccmvalid, .notConstructed), (s.tlen.toNat ≠ s.mlen.toNat, .invalidTagLength),
      (65536 ≤ s.dlen.toNat, .plaintextTooLong), (Config.abufCap < s.alen.toNat, .bufferCapacity)]
  | .clear => []
  | .subbytes => []
  | .shiftrows => []
  | .mixcolumns => []
  | .addroundkey => []
  | .ksword => []
  | .enccore => []
  | .dbl => []
  | .absorb => []
  | .ctrblk => []
  | .tagcmp => []

/-- The error a command reports before it computes, if any (R211). -/
def firstError (i : Instr) (s : State) : Option ErrCode := firstFailing (checks i s)

end Sys2Proof.Machine
end

