-- ==== Sys2Proof/Machine/Work.lean ====
section
/-! DEFINITION. The work counts of 70_reset_and_hazards.md R234, over the same loop bounds the sequencers use. They are no state:
CORE "has no cycle, time or operation counter" (60_exceptions.md R217; log entry 16). -/

namespace Sys2Proof.Machine

/-- Calls of `E` an instruction makes once its checks have passed, by the loop bounds of its sequencer (R145, R163, R182, R183). -/
def encryptLoopCalls (i : Instr) (s : State) : Nat :=
  match i with
  | .keyexp => 0
  | .encblk => 1
  | .cmacinit => 1
  | .cmacgen => (cmacBlockCount s.dlen.toNat - 1) + 1
  | .cmacvfy => (cmacBlockCount s.dlen.toNat - 1) + 1
  | .ccminit => 0
  | .ccmenc => (1 + aadBlockCount s.alen.toNat + dataBlockCount s.dlen.toNat) + 1 + dataBlockCount s.dlen.toNat
  | .ccmdec => dataBlockCount s.dlen.toNat + (1 + aadBlockCount s.alen.toNat + dataBlockCount s.dlen.toNat) + 1
  | .clear => 0
  | .subbytes => 0
  | .shiftrows => 0
  | .mixcolumns => 0
  | .addroundkey => 0
  | .ksword => 0
  | .enccore => 1
  | .dbl => 0
  | .absorb => 1
  | .ctrblk => 1
  | .tagcmp => 0

/-- Calls of KSWORD an instruction makes once its checks have passed (R105). -/
def scheduleLoopCalls (i : Instr) : Nat :=
  match i with
  | .keyexp => 40
  | .encblk => 0
  | .cmacinit => 40
  | .cmacgen => 0
  | .cmacvfy => 0
  | .ccminit => 40
  | .ccmenc => 0
  | .ccmdec => 0
  | .clear => 0
  | .subbytes => 0
  | .shiftrows => 0
  | .mixcolumns => 0
  | .addroundkey => 0
  | .ksword => 1
  | .enccore => 0
  | .dbl => 0
  | .absorb => 0
  | .ctrblk => 0
  | .tagcmp => 0

/-- Calls of `E` an instruction makes: none when one of its checks fails, before anything is computed (R234). A CCMDEC that ends in
AuthenticationFailure has made them all. -/
def encryptCalls (i : Instr) (s : State) : Nat :=
  match firstError i s with
  | some _ => 0
  | none => encryptLoopCalls i s

/-- Calls of KSWORD an instruction makes: none when one of its checks fails (R234). -/
def scheduleCalls (i : Instr) (s : State) : Nat :=
  match firstError i s with
  | some _ => 0
  | none => scheduleLoopCalls i

/-- Calls of `E` and of KSWORD that a write of `c` to CMD makes; a reserved code fails and makes none (R234). -/
def callsOfWrite (c : Byte) (s : State) : Nat × Nat :=
  match decodeCommand c with
  | .ok i => (encryptCalls i s, scheduleCalls i s)
  | .error _ => (0, 0)

end Sys2Proof.Machine
end

