-- ==== Sys2Proof/Safety.lean ====
section
/-! DEFINITION. The terms claims are stated in: what a command leaves behind (10_state.md R49, 60_exceptions.md R212) and the
invariant of the machine between commands. -/

namespace Sys2Proof.Machine

/-! ### What a command leaves -/

/-- What every command but CLEAR leaves of the private registers and of BUSY, DONE and PHASE (R42, R49). -/
def atRest (s : State) : State :=
  { s with
    done := true, busy := false, phase := .idle
    regS := zeroBlock, regX := zeroBlock, regA := zeroBlock, regKS := zeroBlock, regS0 := zeroBlock
    regT := zeroWord, regLB := zeroBlock, regCTR := 0, regRND := 0, regWI := 0, regBI := 0 }

/-- A command that ended in error `e`: ERR and OK, OLEN and TOLEN 0, nothing else (R49, R212). -/
def failed (e : ErrCode) (s : State) : State :=
  atRest { s with ok := false, err := e, olen := 0, tolen := 0 }

/-- A command that ended without error and, so far, without results: OK 1, ERR 0, OLEN and TOLEN 0 (R48, R49). -/
def succeeded (s : State) : State :=
  atRest { s with ok := true, err := .none, olen := 0, tolen := 0 }

/-- A successful construction: the whole context is replaced (R41, R49). -/
def constructed (s : State) (k1 k2 : Block) (nonce : Nonce) (m : BitVec 5) (sk ccm : Bool) : State :=
  { succeeded s with
    rk := keySchedule s.keyin, k1 := k1, k2 := k2, nonce := nonce, mlen := m
    kvalid := true, skvalid := sk, ccmvalid := ccm }

/-- The tag CCM gives for the associated data in ABUF and the message `p`, under the binding (R184). -/
def tagFor (s : State) (p : List Byte) : Block := ccmMaskedMac s.rk s.nonce s.mlen.toNat (aadOperand s) p

/-- The counter-mode transform of the data in DIN under the binding (R182). -/
def transformed (s : State) : List Byte := ctrXor s.rk s.nonce (dataOperand s)

/-- The tag supplied in TAGIN agrees in its first MLEN bytes with the one of the recovered plaintext (R186, R148). -/
def Authentic (s : State) : Prop :=
  firstBytes (tagFor s (transformed s)) s.mlen.toNat = firstBytes s.tagin s.mlen.toNat

/-! ### The invariant between host accesses -/

/-- A buffer in canonical form with no byte at or above its capacity (R60, R64). -/
def BufferOk (cap : Nat) (m : Memory) : Prop := Memory.wf m ∧ ∀ c ∈ m, c.1 < cap

/-- What holds of CORE whenever the host can observe it. -/
structure Inv (s : State) : Prop where
  /-- The buffers are canonical and within their capacities. -/
  abufOk : BufferOk Config.abufCap s.abuf
  dinOk : BufferOk Config.dbufCap s.din
  doutOk : BufferOk Config.dbufCap s.dout
  /-- BUSY reads 0 and PHASE is IDLE (R34, R43). -/
  idle : s.busy = false ∧ s.phase = .idle
  /-- The working registers hold nothing (R42). -/
  working : clearWorking s = s
  /-- RK is the schedule of its own first round key, or zero (R38, R105, 93 U8). -/
  keys : s.rk = if s.kvalid then keySchedule (roundKey s.rk 0) else zeroKeys
  /-- K1 and K2 are the subkeys of RK, or zero (R39, R142). -/
  subkeys : (s.k1, s.k2) = if s.skvalid then (subkey1 s.rk, subkey2 s.rk) else (zeroBlock, zeroBlock)
  /-- The CCM binding has a legal tag length, or is zero (R40, R160). -/
  binding : if s.ccmvalid then legalTagLength s.mlen.toNat = true else s.nonce = zeroNonce ∧ s.mlen = 0
  /-- Subkeys and binding need a key, and exclude each other (R41). -/
  flags : (s.skvalid = true → s.kvalid = true) ∧ (s.ccmvalid = true → s.kvalid = true)
    ∧ ¬(s.skvalid = true ∧ s.ccmvalid = true)
  /-- After an error there is no result (R212). -/
  noResult : s.err ≠ .none → s.ok = false ∧ s.olen = 0 ∧ s.tolen = 0
  /-- A result is at most what its buffer holds (R31, R32). -/
  results : s.olen.toNat ≤ 65535 ∧ s.tolen.toNat ≤ 16
  /-- Until a command completes since reset or CLEAR, STATUS reads 0 and there is no output (R34, R47). -/
  fresh : s.done = false →
    statusWord s = 0 ∧ s.olen = 0 ∧ s.tolen = 0 ∧ s.tagout = zeroBlock ∧ s.dout = []

end Sys2Proof.Machine
end

