-- ==== Sys2Proof/Certificates/Slice0/Obligations.lean ====
section
/-! DEFINITION. The statements for the provers. Each is about exec, step or a named function of the model, and its docstring says
which rule of spec/ it formalises. -/

open Sys2Proof Sys2Proof.Machine

/-! ### Encoding -/

/-- The decoder accepts exactly the encodings of R81 and R94, each as the instruction it stands for: no two
instructions share one, and every other byte and label is rejected. -/
def Obligations.DecodeAcceptsExactlyTheEncodings : Prop :=
  ∀ (w : Encoded) (i : Instr), decode w = .ok i ↔ w = encode i

/-- R82: the codes 0x00 and 0x0A to 0xFF select no command, and a write of one to CMD ends in UnknownCommand with no other effect. -/
def Obligations.ReservedCodesEndInUnknownCommand : Prop :=
  ∀ (s : State) (c : Byte), c = 0x00 ∨ 0x0A ≤ c.toNat →
    decodeCommand c = .error (.unknownCommand c) ∧ issueCommand c s = .next (failed .unknownCommand s)

/-- Words written out from the tables of R81 and R94 decode to their instructions. -/
def Obligations.WrittenOutWordsDecode : Prop :=
  decodeCommand 0b00000001#8 = .ok .keyexp ∧ decodeCommand 0b00000010#8 = .ok .encblk
    ∧ decodeCommand 0b00000101#8 = .ok .cmacvfy ∧ decodeCommand 0b00001000#8 = .ok .ccmdec
    ∧ decodeCommand 0b00001001#8 = .ok .clear ∧ decodeLabel 0b0001#4 = .ok .subbytes
    ∧ decodeLabel 0b0110#4 = .ok .enccore ∧ decodeLabel 0b1010#4 = .ok .tagcmp

/-! ### The step -/

/-- R33: a host write of `c` to CMD makes the step execute the command whose code is `c`, on the state without that access; a reserved code
ends in UnknownCommand. The same command placed by withFetchWord (the model's own placement, log entry 13) is what the very next step runs. -/
def Obligations.StepRunsTheIssuedCommand : Prop :=
  (∀ (s : State) (c : Byte) (i : Instr) (rest : List Access),
    s.host = .writeReg 0 (c.setWidth 64) :: rest → decodeCommand c = .ok i →
      step s = exec i { s with host := rest })
  ∧ (∀ (s : State) (c : Byte) (e : Reject) (rest : List Access),
    s.host = .writeReg 0 (c.setWidth 64) :: rest → decodeCommand c = .error e →
      step s = .next (failed .unknownCommand { s with host := rest }))
  ∧ ∀ (s : State) (c : Byte) (i : Instr), decodeTableWord 8 c.toNat = some i →
    step (s.withFetchWord 8 c.toNat) = exec i s

/-- With no host access pending nothing happens. The empty list is the model's own (log entry 3). -/
def Obligations.NothingHappensWithoutTheHost : Prop :=
  ∀ s : State, s.host = [] → step s = .next s

/-! ### Reset -/

/-- R47: after reset every register, private register and buffer byte is 0, STATUS reads 0x0000 and PHASE is IDLE. -/
def Obligations.ResetLeavesEverythingZero : Prop :=
  let s := State.reset
  (s.keyin = zeroBlock ∧ s.noncein = zeroNonce ∧ s.tagin = zeroBlock ∧ s.tagout = zeroBlock)
    ∧ (s.klen = 0 ∧ s.nlen = 0 ∧ s.maclen = 0 ∧ s.tlen = 0 ∧ s.alen = 0 ∧ s.dlen = 0 ∧ s.olen = 0 ∧ s.tolen = 0)
    ∧ statusWord s = 0x0000#16
    ∧ (s.rk = zeroKeys ∧ s.k1 = zeroBlock ∧ s.k2 = zeroBlock ∧ s.nonce = zeroNonce ∧ s.mlen = 0)
    ∧ (s.regS = zeroBlock ∧ s.regX = zeroBlock ∧ s.regA = zeroBlock ∧ s.regKS = zeroBlock ∧ s.regS0 = zeroBlock
      ∧ s.regT = zeroWord ∧ s.regLB = zeroBlock ∧ s.regCTR = 0 ∧ s.regRND = 0 ∧ s.regWI = 0 ∧ s.regBI = 0)
    ∧ s.phase = .idle
    ∧ ∀ (b : Buffer) (a : Nat), memRead (bufferOf b s) a = 0

/-- R230: reset, at any state, leaves the reset state; the host's list and its read values are not CORE's. -/
def Obligations.ResetAccessLeavesTheResetState : Prop :=
  ∀ (s : State) (rest : List Access), s.host = .reset :: rest →
    step s = .next { State.reset with host := rest, got := s.got }

/-- R195: CLEAR never fails and leaves exactly the state reset leaves. -/
def Obligations.ClearLeavesTheResetState : Prop :=
  ∀ s : State, exec .clear s = .next { State.reset with host := s.host, got := s.got }

/-! ### Registers and buffers as the host sees them -/

/-- R34, R201: what a host read of register number 1 returns, bit by bit, with the ten codes of ERR. -/
def Obligations.StatusBitsAreTheFlags : Prop :=
  (∀ (s : State) (rest : List Access), s.host = .readReg 1 :: rest →
    step s = .next { s with host := rest, got := (statusWord s).setWidth 64 :: s.got })
  ∧ ∀ s : State,
    let w := statusWord s
    readRegister (regOf 1) s = w.setWidth 64
      ∧ w.getLsbD 0 = s.done ∧ w.getLsbD 1 = s.busy ∧ w.getLsbD 2 = s.kvalid ∧ w.getLsbD 3 = s.skvalid
      ∧ w.getLsbD 4 = s.ccmvalid ∧ w.getLsbD 5 = s.ok ∧ w.extractLsb' 6 2 = 0#2 ∧ w.extractLsb' 12 4 = 0#4
      ∧ w.extractLsb' 8 4 =
        match s.err with
        | .none => 0#4
        | .invalidKeySize => 1#4
        | .invalidBlockSize => 2#4
        | .invalidNonceLength => 3#4
        | .invalidTagLength => 4#4
        | .plaintextTooLong => 5#4
        | .authenticationFailure => 6#4
        | .notConstructed => 7#4
        | .unknownCommand => 8#4
        | .bufferCapacity => 9#4

/-- R36: the register each number names, written out, with its width and whether the host may write it. -/
def Obligations.RegisterNumbersFollowTheMap : Prop :=
  (regOf 0 = .cmd ∧ regOf 1 = .status ∧ regOf 2 = .klen ∧ regOf 3 = .nlen ∧ regOf 4 = .maclen ∧ regOf 5 = .tlen
    ∧ regOf 6 = .alen ∧ regOf 7 = .dlen ∧ regOf 8 = .olen ∧ regOf 9 = .tolen)
    ∧ (∀ i : Fin 16, regOf (16 + i) = .keyin i) ∧ (∀ i : Fin 13, regOf (32 + i) = .noncein i)
    ∧ (∀ i : Fin 16, regOf (48 + i) = .tagin i) ∧ (∀ i : Fin 16, regOf (64 + i) = .tagout i)
    ∧ (∀ n : Nat, regOf n = .reserved ↔ (10 ≤ n ∧ n ≤ 15) ∨ (45 ≤ n ∧ n ≤ 47) ∨ 80 ≤ n)
    ∧ (∀ r : Reg, r ≠ .reserved → regOf (regNumber r) = r)
    ∧ (∀ n : Nat, regWidth (regOf n) =
      if n = 1 then 16 else if 2 ≤ n ∧ n ≤ 5 then 32 else if 6 ≤ n ∧ n ≤ 8 then 64 else if regOf n = .reserved then 0 else 8)
    ∧ ∀ n : Nat, hostWritable (regOf n) = true ↔
      n = 0 ∨ (2 ≤ n ∧ n ≤ 7) ∨ (16 ≤ n ∧ n ≤ 44) ∨ (48 ≤ n ∧ n ≤ 63)

/-- R37: a host write to STATUS, OLEN, TOLEN, TAGOUT or a reserved number changes nothing. -/
def Obligations.ReadOnlyRegistersIgnoreWrites : Prop :=
  ∀ (s : State) (n : Nat) (v : BitVec 64) (rest : List Access), s.host = .writeReg n v :: rest →
    (n = 1 ∨ n = 8 ∨ n = 9 ∨ (10 ≤ n ∧ n ≤ 15) ∨ (45 ≤ n ∧ n ≤ 47) ∨ 64 ≤ n) →
      step s = .next { s with host := rest }

/-- R37: a host read of CMD, KEYIN or a reserved number returns 0 and changes nothing else. -/
def Obligations.WriteOnlyRegistersReadZero : Prop :=
  ∀ (s : State) (n : Nat) (rest : List Access), s.host = .readReg n :: rest →
    (n = 0 ∨ (10 ≤ n ∧ n ≤ 31) ∨ (45 ≤ n ∧ n ≤ 47) ∨ 80 ≤ n) →
      step s = .next { s with host := rest, got := 0 :: s.got }

/-- R36, R37, R69: a host write to a length register or to a byte of KEYIN, NONCEIN or TAGIN, of any value of its width, stores that value and
has no effect beyond storing; a register the host may also read (all but KEYIN) then reads as the value. -/
def Obligations.WrittenRegistersReadBack : Prop :=
  ∀ (s : State) (n : Nat) (v : BitVec 64) (rest : List Access), s.host = .writeReg n v :: rest →
    ((2 ≤ n ∧ n ≤ 5) ∧ v.toNat < 2 ^ 32 ∨ (6 ≤ n ∧ n ≤ 7)
      ∨ ((16 ≤ n ∧ n ≤ 44) ∨ (48 ≤ n ∧ n ≤ 63)) ∧ v.toNat < 2 ^ 8) →
      let u := { s with host := rest }
      let t :=
        if n = 2 then { u with klen := v.setWidth 32 }
        else if n = 3 then { u with nlen := v.setWidth 32 }
        else if n = 4 then { u with maclen := v.setWidth 32 }
        else if n = 5 then { u with tlen := v.setWidth 32 }
        else if n = 6 then { u with alen := v }
        else if n = 7 then { u with dlen := v }
        else if n < 32 then { u with keyin := u.keyin.setIfInBounds (n - 16) (v.setWidth 8) }
        else if n < 45 then { u with noncein := u.noncein.setIfInBounds (n - 32) (v.setWidth 8) }
        else { u with tagin := u.tagin.setIfInBounds (n - 48) (v.setWidth 8) }
      step s = .next t ∧ (¬(16 ≤ n ∧ n ≤ 31) → readRegister (regOf n) t = v)

/-- R61 to R63, R69: a byte put into ABUF or DIN below the capacity is stored, with no effect beyond storing; it reads back and every other
byte of the buffer reads as before. A byte put into DOUT changes nothing. The premise is part of Inv. -/
def Obligations.PutBytesReadBack : Prop :=
  ∀ (s : State) (b : Buffer) (a : Nat) (v : Byte) (rest : List Access), s.host = .put b a v :: rest → a < capacity b →
    Memory.wf (bufferOf b s) →
      step s = .next
        (match b with
        | .abuf => { s with host := rest, abuf := memWrite s.abuf a v }
        | .din => { s with host := rest, din := memWrite s.din a v }
        | .dout => { s with host := rest })
      ∧ ∀ a', memRead (memWrite (bufferOf b s) a v) a' = if a' = a then v else memRead (bufferOf b s) a'

/-- Host moves the spec does not have stop by name: a buffer address at or above the capacity (93 U2), and a value wider than a
writable register (R37). The two stops are the model's choices (log entries 5 and 6). -/
def Obligations.HostMovesOutsideTheSpecStop : Prop :=
  ∀ (s : State) (rest : List Access),
    (∀ b a, capacity b ≤ a →
      (∀ v, s.host = .put b a v :: rest → step s = .fault .noSuchBufferByte)
        ∧ (s.host = .get b a :: rest → step s = .fault .noSuchBufferByte))
    ∧ ∀ (n : Nat) (v : BitVec 64), s.host = .writeReg n v :: rest →
      ((n = 0 ∨ (16 ≤ n ∧ n ≤ 44) ∨ (48 ≤ n ∧ n ≤ 63)) ∧ 2 ^ 8 ≤ v.toNat ∨ (2 ≤ n ∧ n ≤ 5) ∧ 2 ^ 32 ≤ v.toNat) →
        step s = .refused .hostValueTooWide

/-- R69: no host read has a side effect; it only returns a value. The values of the registers the host may read (R36; STATUS and the
write-only registers have statements of their own): the length registers, OLEN (R31), TOLEN (R32), and the bytes of NONCEIN, TAGIN and
TAGOUT (R24). -/
def Obligations.HostReadsHaveNoSideEffect : Prop :=
  (∀ (s : State) (rest : List Access),
    (∀ n, s.host = .readReg n :: rest →
      step s = .next { s with host := rest, got := readRegister (regOf n) s :: s.got })
    ∧ ∀ b a, s.host = .get b a :: rest → a < capacity b →
      step s = .next { s with host := rest, got := (memRead (bufferOf b s) a).setWidth 64 :: s.got })
  ∧ ∀ s : State,
    (readRegister (regOf 2) s = s.klen.setWidth 64 ∧ readRegister (regOf 3) s = s.nlen.setWidth 64
      ∧ readRegister (regOf 4) s = s.maclen.setWidth 64 ∧ readRegister (regOf 5) s = s.tlen.setWidth 64
      ∧ readRegister (regOf 6) s = s.alen ∧ readRegister (regOf 7) s = s.dlen
      ∧ readRegister (regOf 8) s = s.olen ∧ readRegister (regOf 9) s = s.tolen.setWidth 64)
    ∧ (∀ i (h : i < 13), readRegister (regOf (32 + i)) s = (s.noncein[i]).setWidth 64)
    ∧ (∀ i (h : i < 16), readRegister (regOf (48 + i)) s = (s.tagin[i]).setWidth 64)
    ∧ ∀ i (h : i < 16), readRegister (regOf (64 + i)) s = (s.tagout[i]).setWidth 64

/-- Key material (KEYIN, RK, K1, K2) cannot be read by any host access: two states that differ only there answer alike (R216). -/
def Obligations.KeyMaterialIsUnreadable : Prop :=
  ∀ (s : State) (key k1 k2 : Block) (rk : RoundKeys) (a : Access) (t : State),
    ((∃ n, a = .readReg n) ∨ ∃ b addr, a = .get b addr) → hostAccess a s = .next t →
      ∃ t', hostAccess a { s with keyin := key, rk := rk, k1 := k1, k2 := k2 } = .next t' ∧ t'.got = t.got

/-! ### Key expansion -/

/-- R106: KEYEXP. -/
def Obligations.KeyexpBuildsTheSchedule : Prop :=
  ∀ s : State,
    (s.klen = 16 → exec .keyexp s = .next (constructed s zeroBlock zeroBlock zeroNonce 0 false false))
      ∧ (s.klen ≠ 16 → exec .keyexp s = .next (failed .invalidKeySize s))

/-- R105: after KEYEXP the words of RK are the key's four words and then, in ascending order, those of KSWORD; RK[0] is the key. -/
def Obligations.ScheduleWordsFollowTheRecurrence : Prop :=
  ∀ s t : State, s.klen = 16 → exec .keyexp s = .next t →
    roundKey t.rk 0 = s.keyin
      ∧ (∀ i, i < 4 → keyWord t.rk i = column s.keyin i)
      ∧ ∀ i, 4 ≤ i → i < 44 → keyWord t.rk i = nextWord i (keyWord t.rk (i - 1)) (keyWord t.rk (i - 4))

/-- R108: the same schedule on the flat byte array. -/
def Obligations.ScheduleOnTheFlatByteArray : Prop :=
  ∀ (key : Block) (k : Nat),
    let rkb := flatByte (keySchedule key)
    (∀ h : k < 16, rkb k = key[k])
      ∧ (16 ≤ k → k < 176 → k / 4 % 4 ≠ 0 → rkb k = rkb (k - 16) ^^^ rkb (k - 4))
      ∧ (16 ≤ k → k < 176 → k / 4 % 4 = 0 →
        rkb k = rkb (k - 16) ^^^ sbox (rkb (4 * (k / 4 - 1) + (k % 4 + 1) % 4))
          ^^^ (if k % 4 = 0 then rcon (k / 4 / 4) else 0))

/-- R104: KSWORD on the word index in WI writes `W[i]` and T, every other word and everything else stays. R42 and R105 name WI for the
index; that the operation run alone finds it there is the model's choice (log entry 7). -/
def Obligations.KswordComputesOneWord : Prop :=
  ∀ s : State, 4 ≤ s.regWI.toNat → s.regWI.toNat ≤ 43 →
    let i := s.regWI.toNat
    let prev := keyWord s.rk (i - 1)
    ∃ (rk : RoundKeys) (t : KeyWord), exec .ksword s = .next { s with rk := rk, regT := t }
      ∧ t = (if i % 4 = 0 then xorFirst (subWord (rotWord prev)) (rcon (i / 4)) else prev)
      ∧ keyWord rk i = xorWord (keyWord s.rk (i - 4)) t
      ∧ ∀ j, j < 44 → j ≠ i → keyWord rk j = keyWord s.rk j

/-- KSWORD outside the indices R104 defines and ADDROUNDKEY above the last round key stop by name. The stop is the model's choice (log entry 9). -/
def Obligations.UndefinedIndicesStop : Prop :=
  ∀ s : State,
    (s.regWI.toNat < 4 ∨ 43 < s.regWI.toNat → exec .ksword s = .fault .wordIndexOutOfRange)
      ∧ (10 < s.regRND.toNat → exec .addroundkey s = .fault .roundOutOfRange)

/-! ### The block cipher -/

/-- R122, R123: SUBBYTES and SHIFTROWS replace S byte by byte and change nothing else. -/
def Obligations.SubBytesAndShiftRowsActOnS : Prop :=
  ∀ s : State,
    (∃ b : Block, exec .subbytes s = .next { s with regS := b } ∧ ∀ k (h : k < 16), b[k] = sbox s.regS[k])
      ∧ ∃ b : Block, exec .shiftrows s = .next { s with regS := b }
        ∧ ∀ r c (hr : r < 4) (hc : c < 4), b[r + 4 * c] = s.regS[r + 4 * ((c + r) % 4)]

/-- R125: MIXCOLUMNS transforms each column of S by the circulant (2, 3, 1, 1) and changes nothing else. -/
def Obligations.MixColumnsActsOnS : Prop :=
  ∀ s : State, ∃ b : Block, exec .mixcolumns s = .next { s with regS := b }
    ∧ ∀ c (hc : c < 4),
      let a0 := s.regS[4 * c]
      let a1 := s.regS[4 * c + 1]
      let a2 := s.regS[4 * c + 2]
      let a3 := s.regS[4 * c + 3]
      b[4 * c] = xtime a0 ^^^ mul3 a1 ^^^ a2 ^^^ a3
        ∧ b[4 * c + 1] = a0 ^^^ xtime a1 ^^^ mul3 a2 ^^^ a3
        ∧ b[4 * c + 2] = a0 ^^^ a1 ^^^ xtime a2 ^^^ mul3 a3
        ∧ b[4 * c + 3] = mul3 a0 ^^^ a1 ^^^ a2 ^^^ xtime a3

/-- R126: ADDROUNDKEY with the round number in RND, for each of the eleven round keys, changes nothing but S. R127 and R128 name RND for
the round; that the operation run alone finds it there is the model's choice (log entry 7). -/
def Obligations.AddRoundKeyActsOnS : Prop :=
  ∀ (s : State) (n : Nat) (hn : n < 11), s.regRND.toNat = n →
    ∃ b : Block, exec .addroundkey s = .next { s with regS := b }
      ∧ ∀ k (h : k < 16), b[k] = s.regS[k] ^^^ (s.rk[n])[k]

/-- R127: ENCCORE leaves `E` of the block in S in S; of the rest it changes RND alone. S as the place of operand and result is the model's
choice (log entry 7), as is running without a check of KVALID (log entry 18). -/
def Obligations.EnccoreComputesE : Prop :=
  ∀ s : State, exec .enccore s = .next { s with regS := encryptBlock s.rk s.regS, regRND := 10 }

/-- R128: the pipeline with its stages enabled or bypassed by RND computes `E`, and SubBytes and ShiftRows commute. -/
def Obligations.PipelineViewComputesE : Prop :=
  (∀ (rk : RoundKeys) (b : Block), (List.range 11).foldl (pipelinePass rk) b = encryptBlock rk b)
    ∧ ∀ s : Block, subBytes (shiftRows s) = shiftRows (subBytes s)

/-- "for a fixed RK is a bijection on blocks" (R127). -/
def Obligations.EncryptionIsABijection : Prop :=
  ∀ rk : RoundKeys, Function.Bijective (encryptBlock rk)

/-- R121: the printed table is the affine map of the inverse in GF(2^8), a permutation with no fixed point. -/
def Obligations.SboxIsTheAffineInverse : Prop :=
  (∀ a : Byte, a ≠ 0 → ∃ x, gmul a x = 1 ∧ sbox a = sboxAffine x) ∧ sbox 0 = sboxAffine 0
    ∧ Function.Bijective sbox ∧ ∀ a : Byte, sbox a ≠ a

/-- R129: ENCBLK. -/
def Obligations.EncblkEncryptsOneBlock : Prop :=
  ∀ s : State,
    (s.kvalid = true → s.dlen = 16 → exec .encblk s = .next
      { succeeded s with
        dout := memWriteBytes s.dout 0 (encryptBlock s.rk (blockOf (memReadBytes s.din 0 16))).toList, olen := 16 })
    ∧ (s.kvalid = false → exec .encblk s = .next (failed .notConstructed s))
    ∧ (s.kvalid = true → s.dlen ≠ 16 → exec .encblk s = .next (failed .invalidBlockSize s))

/-! ### CMAC -/

/-- R141: doubling as arithmetic on the block's big-endian value; DBL, run alone, doubles the block in S and changes nothing
else (S is the model's choice, log entry 7). -/
def Obligations.DblDoublesTheBlock : Prop :=
  (∀ s : State, exec .dbl s = .next { s with regS := double s.regS })
    ∧ ∀ x : Block, intOf (double x).toList
      = ((2 * intOf x.toList) % 2 ^ 128) ^^^ (if 2 ^ 127 ≤ intOf x.toList then 0x87 else 0)

/-- R146, R181: ABSORB of the block in LB, and CTRBLK for the counter in CTR, with all they change. LB and CTR as the places of the operands
are the model's choice (log entry 7), as is running without a check of KVALID (log entry 18). -/
def Obligations.AbsorbAndCtrblkComplete : Prop :=
  ∀ s : State,
    let x := encryptBlock s.rk (xorBlock s.regX s.regLB)
    let a := counterBlock s.nonce s.regCTR.toNat
    let ks := encryptBlock s.rk a
    exec .absorb s = .next { s with regX := x, regS := x, regRND := 10 }
      ∧ exec .ctrblk s = .next { s with regA := a, regKS := ks, regS := ks, regRND := 10 }

/-- R143, R142: CMACINIT builds the schedule and derives K1 and K2 from `E(zeros(16))`. -/
def Obligations.CmacinitDerivesTheSubkeys : Prop :=
  ∀ s : State,
    (s.klen = 16 →
      let rk := keySchedule s.keyin
      let k1 := double (encryptBlock rk zeroBlock)
      exec .cmacinit s = .next (constructed s k1 (double k1) zeroNonce 0 true false))
    ∧ (s.klen ≠ 16 → exec .cmacinit s = .next (failed .invalidKeySize s))

/-- R147: CMACGEN. -/
def Obligations.CmacgenTagsTheMessage : Prop :=
  ∀ s : State,
    (s.skvalid = true → s.dlen.toNat ≤ Config.dbufCap → exec .cmacgen s = .next
      { succeeded s with
        tagout := cmacTag s.rk s.k1 s.k2 (memReadBytes s.din 0 s.dlen.toNat), tolen := 16 })
    ∧ (s.skvalid = false → exec .cmacgen s = .next (failed .notConstructed s))
    ∧ (s.skvalid = true → Config.dbufCap < s.dlen.toNat → exec .cmacgen s = .next (failed .bufferCapacity s))

/-- R149: CMACVFY answers in OK whether the supplied tag has 16 bytes and they are the message's tag; a mismatch is no error. -/
def Obligations.CmacvfyGivesTheVerdict : Prop :=
  ∀ s : State,
    (s.skvalid = true → s.dlen.toNat ≤ Config.dbufCap → exec .cmacvfy s = .next
      { succeeded s with
        ok := decide (s.tlen = 16 ∧ s.tagin = cmacTag s.rk s.k1 s.k2 (memReadBytes s.din 0 s.dlen.toNat)) })
    ∧ (s.skvalid = false → exec .cmacvfy s = .next (failed .notConstructed s))
    ∧ (s.skvalid = true → Config.dbufCap < s.dlen.toNat → exec .cmacvfy s = .next (failed .bufferCapacity s))

/-- R148: the accumulating comparator is equality of byte strings and lengths. -/
def Obligations.ComparatorIsEquality : Prop :=
  ∀ (exp got : List Byte) (n : Nat), exp.length ≤ got.length →
    (tagsMatch exp got n = true ↔ n = exp.length ∧ ∀ k : Nat, k < exp.length → got[k]? = exp[k]?)

/-- TAGCMP run alone compares the first bytes of LB, as many as the expected tag has, with TAGIN and TLEN, and changes OK
alone. Where the expected tag stands and how long it is are the model's choice (log entries 7 and 8). -/
def Obligations.TagcmpSetsOkAlone : Prop :=
  ∀ s : State, expectedTagLength s ≤ 16 →
    ∃ b : Bool, exec .tagcmp s = .next { s with ok := b }
      ∧ (b = true ↔ s.tlen.toNat = expectedTagLength s
        ∧ ∀ k (h : k < 16), k < expectedTagLength s → s.tagin[k] = s.regLB[k])

/-- A tag CMACGEN produced verifies, and any other 16 bytes do not (R149: "verify(m, generate(m)) is true for every m"). -/
def Obligations.GeneratedTagsVerify : Prop :=
  ∀ s t : State, s.skvalid = true → s.dlen.toNat ≤ Config.dbufCap → exec .cmacgen s = .next t →
    ∀ tag : Block, ∃ v, exec .cmacvfy { t with tagin := tag, tlen := 16 } = .next v
      ∧ v.err = .none ∧ (v.ok = true ↔ tag = t.tagout)

/-! ### CCM -/

/-- R160: CCMINIT, its three checks in order. -/
def Obligations.CcminitLatchesTheBinding : Prop :=
  ∀ s : State,
    let legal := s.maclen.toNat ∈ [4, 6, 8, 10, 12, 14, 16]
    (legal → s.nlen = 13 → s.klen = 16 → exec .ccminit s = .next
      (constructed s zeroBlock zeroBlock s.noncein (s.maclen.setWidth 5) false true))
    ∧ (¬legal → exec .ccminit s = .next (failed .invalidTagLength s))
    ∧ (legal → s.nlen ≠ 13 → exec .ccminit s = .next (failed .invalidNonceLength s))
    ∧ (legal → s.nlen = 13 → s.klen ≠ 16 → exec .ccminit s = .next (failed .invalidKeySize s))

/-- R185: CCMENC. -/
def Obligations.CcmencEncryptsAndTags : Prop :=
  ∀ s : State,
    (s.ccmvalid = true → s.dlen.toNat < 65536 → s.alen.toNat ≤ Config.abufCap →
      let p := memReadBytes s.din 0 s.dlen.toNat
      let aad := memReadBytes s.abuf 0 s.alen.toNat
      let tag := xorBlock (cbcMac s.rk s.nonce s.mlen.toNat aad p) (keystream s.rk s.nonce 0)
      exec .ccmenc s = .next
        { succeeded s with
          dout := memWriteBytes s.dout 0 (ctrXor s.rk s.nonce p), olen := s.dlen
          tagout := overlay s.mlen.toNat tag s.tagout, tolen := s.mlen.setWidth 8 })
    ∧ (s.ccmvalid = false → exec .ccmenc s = .next (failed .notConstructed s))
    ∧ (s.ccmvalid = true → 65536 ≤ s.dlen.toNat → exec .ccmenc s = .next (failed .plaintextTooLong s))
    ∧ (s.ccmvalid = true → s.dlen.toNat < 65536 → Config.abufCap < s.alen.toNat →
      exec .ccmenc s = .next (failed .bufferCapacity s))

/-- CCMDEC whose supplied tag is that of the recovered plaintext: the plaintext in DOUT, OLEN, OK (R186). The bound on MLEN is part of Inv. -/
def Obligations.CcmdecReturnsAuthenticPlaintext : Prop :=
  ∀ s : State, s.ccmvalid = true → s.mlen.toNat ≤ 16 → s.tlen.toNat = s.mlen.toNat → s.dlen.toNat < 65536 →
    s.alen.toNat ≤ Config.abufCap → Authentic s →
      exec .ccmdec s = .next
        { succeeded s with dout := memWriteBytes s.dout 0 (transformed s), olen := s.dlen }

/-- CCMDEC whose supplied tag is not: AuthenticationFailure, zeros over `DOUT[0..DLEN-1]` and nothing else (R186, R207). The
premises on MLEN and DOUT are part of Inv. -/
def Obligations.CcmdecZeroesOnMismatch : Prop :=
  ∀ s : State, s.ccmvalid = true → s.mlen.toNat ≤ 16 → s.tlen.toNat = s.mlen.toNat → s.dlen.toNat < 65536 →
    s.alen.toNat ≤ Config.abufCap → Memory.wf s.dout → ¬Authentic s →
      exec .ccmdec s = .next
        { failed .authenticationFailure s with dout := memWriteBytes s.dout 0 (List.replicate s.dlen.toNat 0) }

/-- R182: byte `t` of CTRXOR is `D[t] ^ S_(1 + t div 16)[t mod 16]`, the length is kept, and CTRXOR is its own inverse. -/
def Obligations.CounterModeIsItsOwnInverse : Prop :=
  ∀ (rk : RoundKeys) (nonce : Nonce) (d : List Byte),
    (ctrXor rk nonce d).length = d.length
      ∧ (∀ t (h : t < d.length), (ctrXor rk nonce d)[t]?
        = some (d[t] ^^^ (encryptBlock rk (counterBlock nonce (1 + t / 16)))[t % 16]'(by omega)))
      ∧ ctrXor rk nonce (ctrXor rk nonce d) = d

/-- R236: two messages under one binding have the same keystream: their ciphertexts XOR to the XOR of the plaintexts. -/
def Obligations.NonceReuseRevealsTheXor : Prop :=
  ∀ (rk : RoundKeys) (nonce : Nonce) (p q : List Byte),
    List.zipWith (fun x y => x ^^^ y) (ctrXor rk nonce p) (ctrXor rk nonce q)
      = List.zipWith (fun x y => x ^^^ y) p q

/-- The round trip of R186: CCMDEC on the DOUT and TAGOUT of a CCMENC, with the same associated data, authenticates and
returns the plaintext. The premises on MLEN and the buffers are part of Inv. -/
def Obligations.DecryptionInvertsEncryption : Prop :=
  ∀ s t : State, s.ccmvalid = true → s.mlen.toNat ≤ 16 → s.dlen.toNat < 65536 → s.alen.toNat ≤ Config.abufCap →
    Memory.wf s.din → Memory.wf s.dout → exec .ccmenc s = .next t →
      let u := { t with
        din := memWriteBytes t.din 0 (memReadBytes t.dout 0 t.olen.toNat), dlen := t.olen
        tagin := overlay t.tolen.toNat t.tagout t.tagin, tlen := t.tolen.setWidth 32 }
      ∃ v, exec .ccmdec u = .next v ∧ v.ok = true ∧ v.err = .none ∧ v.olen = s.dlen
        ∧ memReadBytes v.dout 0 v.olen.toNat = memReadBytes s.din 0 s.dlen.toNat

/-- The length header makes the formatted associated data unambiguous: different data have different streams (R86, R87). -/
def Obligations.FormattedAadIsUnambiguous : Prop :=
  ∀ a b : List Byte, a.length < 2 ^ 64 → b.length < 2 ^ 64 → fmtA a = fmtA b → a = b

/-- R85: the flags byte for every legal tag length. -/
def Obligations.FlagsByteOfB0 : Prop :=
  ∀ a m : Nat, m ∈ [4, 6, 8, 10, 12, 14, 16] →
    (b0Flags a m).toNat = 64 * (if 0 < a then 1 else 0) + 4 * m - 7
      ∧ (b0Flags a m).getLsbD 7 = false ∧ (b0Flags a m).getLsbD 6 = decide (0 < a)
      ∧ (b0Flags a m).extractLsb' 3 3 = BitVec.ofNat 3 ((m - 2) / 2) ∧ (b0Flags a m).extractLsb' 0 3 = 1#3

/-- The counter block of R89: no two counters below 65536 share one, none is B0, and a message of at most 65535 bytes uses counters
up to 4096 (R189). -/
def Obligations.CounterBlocksAreDistinct : Prop :=
  (∀ (nonce : Nonce) (i j : Nat), i < 65536 → j < 65536 → counterBlock nonce i = counterBlock nonce j → i = j)
    ∧ (∀ (n n' : Nonce) (m a p i : Nat), m ∈ [4, 6, 8, 10, 12, 14, 16] → b0Block n m a p ≠ counterBlock n' i)
    ∧ ∀ d : Nat, d ≤ 65535 → dataBlockCount d ≤ 4096

/-! ### Errors, context and frames -/

/-- R211: the first failing check of a command is the error it reports, and by R212 it changes nothing but STATUS, OLEN and
TOLEN (and leaves the working registers clear). -/
def Obligations.FirstFailingCheckIsReported : Prop :=
  ∀ (i : Instr) (s : State) (e : ErrCode), firstError i s = some e → exec i s = .next (failed e s)

/-- R212: errors are precise. A write to CMD, of whatever code, that ends in error leaves the state as it was but for STATUS, OLEN, TOLEN
(and clear working registers) and, after AuthenticationFailure, zeros over `DOUT[0..DLEN-1]`. The premise on DOUT is part of Inv. -/
def Obligations.ErrorsArePrecise : Prop :=
  ∀ (c : Byte) (s t : State), Memory.wf s.dout → issueCommand c s = .next t → t.err ≠ .none →
    t = { failed t.err s with
      dout := if t.err = .authenticationFailure then memWriteBytes s.dout 0 (List.replicate s.dlen.toNat 0)
        else s.dout }

/-- Every command completes, whatever the state, and leaves the engine idle with clear working registers (R42, R49). -/
def Obligations.EveryCommandCompletes : Prop :=
  ∀ (i : Instr) (s : State), i.hostVisible = true →
    ∃ t, exec i s = .next t ∧ t.phase = .idle ∧ t.busy = false ∧ clearWorking t = t ∧ t.done = !decide (i = .clear)
      ∧ t.host = s.host ∧ t.got = s.got

/-- R42: no command reads a working register, PHASE, BUSY or DONE that an earlier command left. -/
def Obligations.CommandsIgnoreWorkingRegisters : Prop :=
  ∀ (i : Instr) (s s' : State), i.hostVisible = true → atRest s = atRest s' → exec i s = exec i s'

/-- R41: the valid flags after each command. -/
def Obligations.ValidFlagsFollowConstructions : Prop :=
  ∀ (i : Instr) (s t : State), i.hostVisible = true → exec i s = .next t →
    (t.kvalid, t.skvalid, t.ccmvalid) =
      if i = .clear then (false, false, false)
      else if t.err ≠ .none then (s.kvalid, s.skvalid, s.ccmvalid)
      else if i = .keyexp then (true, false, false)
      else if i = .cmacinit then (true, true, false)
      else if i = .ccminit then (true, false, true)
      else (s.kvalid, s.skvalid, s.ccmvalid)

/-- R107: RK, and with it K1, K2, NONCE and MLEN, changes only in a successful construction or CLEAR. -/
def Obligations.DataCommandsLeaveTheContext : Prop :=
  ∀ (i : Instr) (s t : State), i.hostVisible = true → exec i s = .next t →
    (i ∈ [.encblk, .cmacgen, .cmacvfy, .ccmenc, .ccmdec] ∨ t.err ≠ .none) →
      t.rk = s.rk ∧ t.k1 = s.k1 ∧ t.k2 = s.k2 ∧ t.nonce = s.nonce ∧ t.mlen = s.mlen

/-- "No command writes KEYIN, NONCEIN, TAGIN, KLEN, NLEN, MACLEN, TLEN, ALEN, DLEN, ABUF or DIN (CLEAR excepted)" (R49). -/
def Obligations.CommandsLeaveTheInputs : Prop :=
  ∀ (i : Instr) (s t : State), i.hostVisible = true → i ≠ .clear → exec i s = .next t →
    t.keyin = s.keyin ∧ t.noncein = s.noncein ∧ t.tagin = s.tagin ∧ t.klen = s.klen ∧ t.nlen = s.nlen
      ∧ t.maclen = s.maclen ∧ t.tlen = s.tlen ∧ t.alen = s.alen ∧ t.dlen = s.dlen ∧ t.abuf = s.abuf ∧ t.din = s.din

/-- The outputs' frame (R24, R49, R76, R239): every byte of DOUT outside the bytes the command stores to reads as before, and TAGOUT keeps
the bytes at and above TOLEN. ENCBLK stores to `DOUT[0..15]`, CCMENC and CCMDEC to `DOUT[0..DLEN-1]`, no other
command stores. The premise on DOUT is part of Inv. -/
def Obligations.OutputBytesOutsideTheResultStay : Prop :=
  ∀ (i : Instr) (s t : State), i.hostVisible = true → i ≠ .clear → Memory.wf s.dout → exec i s = .next t →
    (∀ a : Nat, (if i = .encblk then 16 else if i = .ccmenc ∨ i = .ccmdec then s.dlen.toNat else 0) ≤ a →
      memRead t.dout a = memRead s.dout a)
    ∧ ∀ k (h : k < 16), t.tolen.toNat ≤ k → t.tagout[k] = s.tagout[k]

/-- R243: for every command but CMACVFY (and CLEAR) OK is 1 exactly when ERR is 0, and CMACVFY's OK implies ERR 0. -/
def Obligations.OkIsTheVerdict : Prop :=
  ∀ (i : Instr) (s t : State), i.hostVisible = true → i ≠ .clear → exec i s = .next t →
    (i ≠ .cmacvfy → (t.ok = true ↔ t.err = .none)) ∧ (t.ok = true → t.err = .none)

/-- The table of R234: the calls of `E` and of KSWORD per command, which the model counts as functions (log entry 16). A command one of
whose checks fails, and a reserved code, make none. The lists of blocks CMAC and CBC-MAC absorb have the lengths counted. -/
def Obligations.WorkCountsInClosedForm : Prop :=
  ∀ s : State,
    let p := s.dlen.toNat
    let a := s.alen.toNat
    let mac := 1 + (if 0 < a then ceil16 ((aadHeader a).length + a) / 16 else 0) + ceil16 p / 16
    (∀ i : Instr, i.hostVisible = true → firstError i s = none → (encryptCalls i s, scheduleCalls i s) =
      if i = .keyexp then (0, 40)
      else if i = .encblk then (1, 0)
      else if i = .cmacinit then (1, 40)
      else if i = .cmacgen ∨ i = .cmacvfy then (max 1 (ceil16 p / 16), 0)
      else if i = .ccminit then (0, 40)
      else if i = .ccmenc ∨ i = .ccmdec then (mac + 1 + ceil16 p / 16, 0)
      else (0, 0))
    ∧ (∀ (i : Instr) (e : ErrCode), firstError i s = some e → (encryptCalls i s, scheduleCalls i s) = (0, 0))
    ∧ (∀ c : Byte, c = 0x00 ∨ 0x0A ≤ c.toNat → callsOfWrite c s = (0, 0))
    ∧ (cmacBlocks s.k1 s.k2 (memReadBytes s.din 0 p)).length = max 1 (ceil16 p / 16)
    ∧ (splitBlocks (ccmStream s.nonce s.mlen.toNat (memReadBytes s.abuf 0 a) (memReadBytes s.din 0 p))).length = mac

/-! ### The invariant -/

/-- The invariant holds at reset. -/
def Obligations.ResetMeetsTheInvariant : Prop := Inv State.reset

/-- Every step from any state that meets the invariant leads to one that does. -/
def Obligations.StepKeepsTheInvariant : Prop :=
  ∀ s t : State, Inv s → step s = .next t → Inv t
end

