-- ==== Sys2Proof/Laws/Loops.lean ====
section
/-! SUPPORT. The loops of the sequencers. -/

namespace Sys2Proof.Machine

/-- The loop of the pseudocode is a fold over the ascending indices. -/
theorem forRange_eq_foldl {σ : Type} (f : Nat → σ → σ) (n : Nat) :
    ∀ (lo : Nat) (s : σ), forRange lo n f s = (List.range' lo n).foldl (fun s i => f i s) s := by
  induction n with
  | zero => intro lo s; rfl
  | succ n ih => intro lo s; simp [forRange, ih, List.range'_succ]

/-- A loop seen through `g`. -/
theorem forRange_hom {σ τ : Type} {f : Nat → σ → σ} {h : Nat → τ → τ} (g : σ → τ)
    (hg : ∀ i s, g (f i s) = h i (g s)) (n : Nat) :
    ∀ (lo : Nat) (s : σ), g (forRange lo n f s) = forRange lo n h (g s) := by
  induction n with
  | zero => intro lo s; rfl
  | succ n ih => intro lo s; simp only [forRange, ih, hg]

/-- What every iteration keeps, the loop keeps. -/
theorem forRange_inv {σ : Type} {f : Nat → σ → σ} (P : σ → Prop) (hf : ∀ i s, P s → P (f i s)) (n : Nat) :
    ∀ (lo : Nat) (s : σ), P s → P (forRange lo n f s) := by
  induction n with
  | zero => intro lo s h; exact h
  | succ n ih => intro lo s h; exact ih _ _ (hf _ _ h)

end Sys2Proof.Machine
end

