-- ==== Sys2Proof/Laws/Cipher.lean ====
section
/-! SUPPORT. What the round sequencer, ABSORB, CTRBLK and DERIVE do to the whole state. -/

namespace Sys2Proof.Machine

/-- One full round of the sequencer (R127). -/
theorem fullRound_eq (r : Nat) (s : State) (h : r < 16) :
    fullRound r s =
      { s with regS := cipherRound (roundKey s.rk r) s.regS, regRND := BitVec.ofNat 4 r } := by
  have : (BitVec.ofNat 4 r).toNat = r := by simp; omega
  simp [fullRound, stageAddRoundKey, stageMixColumns, stageShiftRows, stageSubBytes, cipherRound, this]

/-- The rounds of the loop, each with its own round key (R127). -/
theorem fullRounds_eq (n : Nat) : ∀ (lo : Nat) (s : State), lo + n < 16 →
    forRange lo (n + 1) fullRound s =
      { s with
        regS := (List.range' lo (n + 1)).foldl (fun b r => cipherRound (roundKey s.rk r) b) s.regS
        regRND := BitVec.ofNat 4 (lo + n) } := by
  induction n with
  | zero => intro lo s h; rw [forRange, fullRound_eq _ _ (by omega)]; rfl
  | succ n ih =>
    intro lo s h
    rw [forRange, ih _ _ (by omega), fullRound_eq _ _ (by omega), Nat.add_right_comm lo 1 n,
      List.range'_succ (s := lo), List.foldl_cons]
    rfl

/-- ENCCORE leaves `E` of S in S and 10 in RND, and changes nothing else (R127, R130). -/
theorem encryptCore_eq (s : State) :
    encryptCore s = { s with regS := encryptBlock s.rk s.regS, regRND := 10 } := by
  simp only [encryptCore, fullRounds_eq 8 1 _ (by omega), finalRound, stageAddRoundKey, stageShiftRows, stageSubBytes,
    encryptBlock]
  rfl


/-- ABSORB changes S, X and RND (R146). -/
theorem absorbLB_eq (s : State) :
    absorbLB s = { s with
      regS := encryptBlock s.rk (xorBlock s.regX s.regLB)
      regX := encryptBlock s.rk (xorBlock s.regX s.regLB), regRND := 10 } := by
  rw [absorbLB, encryptCore_eq]

/-- CTRBLK changes A, S, KS and RND (R181). -/
theorem keystreamBlock_eq (s : State) :
    keystreamBlock s = { s with
      regA := counterBlock s.nonce s.regCTR.toNat
      regS := keystream s.rk s.nonce s.regCTR.toNat
      regKS := keystream s.rk s.nonce s.regCTR.toNat, regRND := 10 } := by
  rw [keystreamBlock, encryptCore_eq]; rfl

/-- DERIVE changes K1 and K2, and of the working registers S, RND and PHASE (R142). -/
theorem deriveSubkeys_eq (s : State) :
    ∃ sr, deriveSubkeys s = { s with
      phase := .subkey, regRND := 10, regS := sr, k1 := subkey1 s.rk, k2 := subkey2 s.rk } :=
  ⟨subkey2 s.rk, by simp only [deriveSubkeys, encryptCore_eq, doubleS, subkey1, subkey2]⟩

end Sys2Proof.Machine
end

