-- ==== Sys2Proof/Laws/Config.lean ====
section
/-! SUPPORT. The bounds of the two capacities, and what they admit. -/

namespace Sys2Proof.Machine

/-- `DBUF_CAP >= 65535` (R64). -/
theorem dbufCap_ge : 65535 ≤ Config.dbufCap := Nat.le_add_right _ _

/-- `DBUF_CAP` is below 2^64 (R64). -/
theorem dbufCap_lt : Config.dbufCap < 2 ^ 64 := by
  have := Nat.mod_lt Config.dbufChoice (show 0 < 2 ^ 64 - 65535 by decide)
  unfold Config.dbufCap
  omega

/-- `ABUF_CAP` is below 2^64 (R64). -/
theorem abufCap_lt : Config.abufCap < 2 ^ 64 := Nat.mod_lt _ (by decide)

end Sys2Proof.Machine
end

