-- ==== Sys2Proof/Laws/Host.lean ====
section
/-! SUPPORT. What a step does with the host's next access, what a register write stores, and how a host program runs. -/

namespace Sys2Proof.Machine

/-- A step performs the host's next access on the state without it (R233). -/
theorem step_of_host {s : State} {a : Access} {rest : List Access} (h : s.host = a :: rest) :
    step s = hostAccess a { s with host := rest } := by
  simp only [step, nextAccess, h]

/-- With nothing pending a step does nothing. -/
theorem step_of_no_host {s : State} (h : s.host = []) : step s = .next s := by
  simp only [step, nextAccess, h]

/-- A write of a fitting value to a register other than CMD stores it and does nothing else (R37). -/
theorem hostWrite_of_fits {r : Reg} {v : BitVec 64} {s : State} (hf : fitsRegister r v = true) (hc : r ≠ .cmd) :
    hostWrite r v s = .next (writeRegister r v s) := by
  rw [hostWrite, if_neg (by rw [hf]; decide), if_neg hc]

/-- A register without W keeps its value: the write changes nothing (R37). -/
theorem writeRegister_of_not_writable {r : Reg} (h : hostWritable r = false) (v : BitVec 64) (s : State) :
    writeRegister r v s = s := by
  cases r <;> first | rfl | cases h

/-- A primitive line whose access completes leaves the rest of the program to run from the next state. -/
theorem runHost_access {moves : Nat} {l : HostLine} {a : Access} {rest : List HostLine} {s t : State}
    (hf : lineFits l = true) (ha : lineAccess l = some a) (ht : hostAccess a s = .next t) :
    runHost (moves + 1) (l :: rest) s = runHost moves rest t := by
  rw [runHost, if_neg (by rw [hf]; decide), ha]
  simp only [ht]

/-- A pseudo-instruction is replaced by its expansion at the state it is reached in. -/
theorem runHost_expand {moves : Nat} {l : HostLine} {rest : List HostLine} {s : State}
    (hf : lineFits l = true) (ha : lineAccess l = none) :
    runHost (moves + 1) (l :: rest) s = runHost moves (expandLine l s ++ rest) s := by
  rw [runHost, if_neg (by rw [hf]; decide), ha]

/-- WAIT ends at the first read exactly when that read shows DONE 1 and BUSY 0 (R93). -/
theorem expandLine_wait (s : State) :
    expandLine .wait s = if s.done = true ∧ s.busy = false then [.rd .status] else [.rd .status, .wait] := by
  have h : showsDone (readRegister .status s) = (s.done && !s.busy) := by
    simp only [showsDone, readRegister, statusWord]
    cases s.done <;> cases s.busy <;> cases s.kvalid <;> cases s.skvalid <;> cases s.ccmvalid <;> cases s.ok <;>
      cases s.err <;> rfl
  simp only [expandLine, h]
  cases s.done <;> cases s.busy <;> rfl

end Sys2Proof.Machine
end

