-- ==== Sys2Proof/Laws/KeyExpansion.lean ====
section
/-! SUPPORT. The words of a schedule, and what EXPAND does to the whole state. -/

namespace Sys2Proof.Machine

theorem column_get (b : Block) (c k : Nat) (hk : k < 4) :
    (column b c)[k] = b[4 * (c % 4) + k] := by
  simp [column]

theorem column_joinWords (a b c d : KeyWord) (j : Nat) (hj : j < 4) :
    column (joinWords a b c d) j = if j = 0 then a else if j = 1 then b else if j = 2 then c else d := by
  ext1 k hk
  have h1 : (4 * (j % 4) + k) % 4 = k := by omega
  rw [column_get _ _ _ hk]
  simp only [joinWords, Vector.getElem_ofFn, h1]
  match j, hj with
  | 0, _ => simp [hk]
  | 1, _ => simp [show 4 + k < 8 by omega]
  | 2, _ => simp [show ¬ 8 + k < 4 by omega, show 8 + k < 12 by omega]
  | 3, _ => simp [show ¬ 12 + k < 4 by omega, show ¬ 12 + k < 8 by omega]

/-- The words of a stored schedule are the columns of its round keys. -/
theorem keyWord_keySchedule (key : Block) (i : Nat) (hi : i < 44) :
    keyWord (keySchedule key) i = column (roundKeyOf key (i / 4)) i := by
  have : i / 4 < 11 := by omega
  simp [keyWord, column, roundKey, keySchedule, this]

theorem keySchedule_word (key : Block) (i : Nat) (h4 : 4 ≤ i) (hi : i < 44) :
    keyWord (keySchedule key) i =
      nextWord i (keyWord (keySchedule key) (i - 1)) (keyWord (keySchedule key) (i - 4)) := by
  rw [keyWord_keySchedule _ _ hi, keyWord_keySchedule _ _ (by omega), keyWord_keySchedule _ _ (by omega)]
  obtain ⟨r, c, hc, rfl⟩ : ∃ r c, c < 4 ∧ i = 4 * (r + 1) + c := ⟨i / 4 - 1, i % 4, by omega, by omega⟩
  have e1 : (4 * (r + 1) + c) / 4 = r + 1 := by omega
  have e2 : (4 * (r + 1) + c - 4) / 4 = r := by omega
  have col (b : Block) (n m : Nat) (h : n % 4 = m) : column b n = column b m := by
    subst h; ext1 k hk; simp [column_get]
  rw [e1, e2, roundKeyOf, nextRoundKey, col _ (4 * (r + 1) + c) c (by omega), column_joinWords _ _ _ _ _ hc]
  rw [col _ (4 * (r + 1) + c - 4) c (by omega)]
  match c, hc with
  | 0, _ =>
    have : (4 * (r + 1) + 0 - 1) / 4 = r := by omega
    rw [this, col _ (4 * (r + 1) + 0 - 1) 3 (by omega)]
    simp [nextWord]
  | 1, _ =>
    have : (4 * (r + 1) + 1 - 1) / 4 = r + 1 := by omega
    rw [this, col _ (4 * (r + 1) + 1 - 1) 0 (by omega), roundKeyOf, nextRoundKey, column_joinWords _ _ _ _ _ (by omega)]
    simp [nextWord]
  | 2, _ =>
    have : (4 * (r + 1) + 2 - 1) / 4 = r + 1 := by omega
    rw [this, col _ (4 * (r + 1) + 2 - 1) 1 (by omega), roundKeyOf, nextRoundKey, column_joinWords _ _ _ _ _ (by omega)]
    simp [nextWord]
  | 3, _ =>
    have : (4 * (r + 1) + 3 - 1) / 4 = r + 1 := by omega
    rw [this, col _ (4 * (r + 1) + 3 - 1) 2 (by omega), roundKeyOf, nextRoundKey, column_joinWords _ _ _ _ _ (by omega)]
    simp [nextWord]

theorem roundKey_setKeyWord (rk : RoundKeys) (i r : Nat) (w : KeyWord) (hi : i < 44) :
    roundKey (setKeyWord rk i w) r =
      if r = i / 4 then
        Vector.ofFn fun k => if k.val / 4 = i % 4 then w[k.val % 4]'(by omega) else (roundKey rk (i / 4))[k]
      else roundKey rk r := by
  have h : i / 4 < 11 := by omega
  by_cases e : r = i / 4
  · subst e; simp [roundKey, setKeyWord, h]
  · simp [roundKey, setKeyWord, e, Ne.symm e]

theorem keyWord_setKeyWord (rk : RoundKeys) (i j : Nat) (w : KeyWord) (hi : i < 44) :
    keyWord (setKeyWord rk i w) j = if j = i then w else keyWord rk j := by
  ext1 k hk
  simp only [keyWord, Vector.getElem_ofFn, roundKey_setKeyWord _ _ _ _ hi]
  by_cases e : j / 4 = i / 4
  · simp only [e, if_true, Vector.getElem_ofFn]
    by_cases e2 : j = i
    · subst e2
      have : (4 * (j % 4) + k) / 4 = j % 4 := by omega
      have h3 : (4 * (j % 4) + k) % 4 = k := by omega
      simp [this, h3]
    · have : ¬ (4 * (j % 4) + k) / 4 = i % 4 := by omega
      simp [this, e2]
  · have : j ≠ i := by rintro rfl; exact e rfl
    simp [this, e]

theorem keys_ext (a b : RoundKeys) (h : ∀ i, i < 44 → keyWord a i = keyWord b i) : a = b := by
  ext1 r hr
  ext1 k hk
  have := congrArg (fun v : KeyWord => v[k % 4]'(by omega)) (h (4 * r + k / 4) (by omega))
  have e : (4 * r + k / 4) / 4 = r := by omega
  have e2 : (4 * r + k / 4) % 4 = k / 4 := by omega
  have e3 : 4 * (k / 4) + k % 4 = k := by omega
  simpa [keyWord, roundKey, e, hr, e2, e3] using this

theorem scheduleWord_eq (s : State) :
    scheduleWord s = { s with
      regT := if s.regWI.toNat % 4 = 0
        then xorFirst (subWord (rotWord (keyWord s.rk (s.regWI.toNat - 1)))) (rcon (s.regWI.toNat / 4))
        else keyWord s.rk (s.regWI.toNat - 1)
      rk := setKeyWord s.rk s.regWI.toNat
        (nextWord s.regWI.toNat (keyWord s.rk (s.regWI.toNat - 1)) (keyWord s.rk (s.regWI.toNat - 4))) } := rfl

/-- EXPAND changes nothing but RK, WI, T and PHASE. -/
theorem expandLoop_frame (n : Nat) : ∀ (lo : Nat) (s : State),
    ∃ rk wi t, forRange lo n expandStep s = { s with rk := rk, regWI := wi, regT := t } := by
  induction n with
  | zero => intro lo s; exact ⟨s.rk, s.regWI, s.regT, rfl⟩
  | succ n ih =>
    intro lo s
    obtain ⟨rk, wi, t, h⟩ := ih (lo + 1) (expandStep lo s)
    exact ⟨rk, wi, t, by rw [forRange, h]; rfl⟩

theorem expandLoop_words (key : Block) (n : Nat) : ∀ (lo : Nat) (s : State), 4 ≤ lo → lo + n ≤ 44 →
    (∀ i, i < lo → keyWord s.rk i = keyWord (keySchedule key) i) →
    ∀ i, i < lo + n → keyWord (forRange lo n expandStep s).rk i = keyWord (keySchedule key) i := by
  induction n with
  | zero => intro lo s _ _ h; exact h
  | succ n ih =>
    intro lo s h4 hn h i hi
    refine ih (lo + 1) _ (by omega) (by omega) ?_ i (by omega)
    intro i hi
    have e : (BitVec.ofNat 6 lo).toNat = lo := by simp; omega
    simp only [expandStep, scheduleWord_eq, e]
    rw [keyWord_setKeyWord _ _ _ _ (by omega)]
    by_cases e : i = lo
    · subst e
      rw [if_pos rfl, keySchedule_word _ _ h4 (by omega), h _ (by omega), h _ (by omega)]
    · rw [if_neg e, h _ (by omega)]

/-- EXPAND leaves the schedule of the key in RK, and changes nothing else but WI, T and PHASE (R105). -/
theorem expandKey_eq (key : Block) (s : State) :
    ∃ wi t, expandKey key s =
      { s with phase := .expand, rk := keySchedule key, regWI := wi, regT := t } := by
  obtain ⟨rk, wi, t, h⟩ := expandLoop_frame 40 4 { s with phase := .expand, rk := s.rk.set 0 key }
  have hw := expandLoop_words key 40 4 { s with phase := .expand, rk := s.rk.set 0 key } (by omega) (by omega) ?_
  · refine ⟨wi, t, ?_⟩
    rw [expandKey, h]
    rw [h] at hw
    rw [keys_ext rk (keySchedule key) fun i hi => hw i hi]
  · intro i hi
    have : i / 4 = 0 := by omega
    simp [keyWord, roundKey, keySchedule, this, roundKeyOf]

end Sys2Proof.Machine
end

