-- ==== Sys2Proof/Laws/Memory.lean ====
section
/-! SUPPORT. The laws of buffer bytes: every store keeps the canonical form, a read after a store, equal reads are equal memories. -/

namespace Sys2Proof.Machine

theorem Memory.wf_nil : Memory.wf [] := by simp [Memory.wf]

theorem Memory.wf_tail {c : Host.Cell} {m : Memory} (h : Memory.wf (c :: m)) : Memory.wf m := by
  simp only [Memory.wf, List.pairwise_cons, List.mem_cons] at *
  exact ⟨h.1.2, fun d hd => h.2 d (.inr hd)⟩

theorem Memory.wf_cons_iff (c : Host.Cell) (m : Memory) :
    Memory.wf (c :: m) ↔ (∀ d ∈ m, c.1 < d.1) ∧ c.2 ≠ unlistedByte ∧ Memory.wf m := by
  simp only [Memory.wf, List.pairwise_cons, List.mem_cons, forall_eq_or_imp]; tauto

theorem mem_memWrite {m : Memory} {a : Nat} {v : Byte} {c : Host.Cell} (h : c ∈ memWrite m a v) :
    c ∈ m ∨ c = (a, v) := by
  induction m with
  | nil => simp only [memWrite] at h; split at h <;> simp_all
  | cons d m ih =>
    simp only [memWrite] at h
    (repeat' split at h) <;> simp only [List.mem_cons] at * <;> tauto

/-- A store keeps the canonical form. -/
theorem memWrite_wf {m : Memory} (h : Memory.wf m) (a : Nat) (v : Byte) : Memory.wf (memWrite m a v) := by
  induction m with
  | nil => simp only [memWrite]; split <;> simp_all [Memory.wf]
  | cons d m ih =>
    obtain ⟨h1, h2, h3⟩ := (Memory.wf_cons_iff _ _).1 h
    simp only [memWrite]
    split
    · split
      · exact h
      · refine (Memory.wf_cons_iff _ _).2 ⟨?_, ‹_›, h⟩
        intro e he
        rcases List.mem_cons.1 he with rfl | he
        · assumption
        · have := h1 e he; simp only at *; omega
    · split
      · split
        · exact h3
        · exact (Memory.wf_cons_iff _ _).2 ⟨by subst_vars; exact h1, ‹_›, h3⟩
      · refine (Memory.wf_cons_iff _ _).2 ⟨?_, h2, ih h3⟩
        intro e he
        rcases mem_memWrite he with he | rfl
        · exact h1 e he
        · simp only; omega

theorem memRead_below {m : Memory} {a : Nat} (h : ∀ d ∈ m, a < d.1) : memRead m a = unlistedByte := by
  induction m with
  | nil => rfl
  | cons d m ih =>
    have h1 := h d (by simp)
    rw [memRead, if_neg (by omega)]
    exact ih fun e he => h e (by simp [he])

/-- A read after a store: the stored byte at its address, every other byte as before. -/
theorem memRead_memWrite {m : Memory} (h : Memory.wf m) (a b : Nat) (v : Byte) :
    memRead (memWrite m a v) b = if b = a then v else memRead m b := by
  induction m with
  | nil =>
    simp only [memWrite]
    by_cases hv : v = unlistedByte <;> by_cases e : b = a <;> simp_all [memRead, eq_comm]
  | cons d m ih =>
    obtain ⟨k, x⟩ := d
    obtain ⟨h1, h2, h3⟩ := (Memory.wf_cons_iff _ _).1 h
    simp only at h1 h2
    simp only [memWrite]
    by_cases hak : a < k
    · rw [if_pos hak]
      by_cases hv : v = unlistedByte
      · rw [if_pos hv]
        by_cases e : b = a
        · subst e
          rw [if_pos rfl, hv, memRead_below]
          intro e he
          rcases List.mem_cons.1 he with rfl | he
          · exact hak
          · have := h1 e he; omega
        · rw [if_neg e]
      · rw [if_neg hv]
        by_cases e : b = a
        · simp [memRead, e]
        · simp [memRead, e, Ne.symm e]
    · rw [if_neg hak]
      by_cases ek : a = k
      · subst ek
        rw [if_pos rfl]
        by_cases hv : v = unlistedByte
        · rw [if_pos hv]
          by_cases e : b = a
          · subst e
            rw [if_pos rfl, hv, memRead_below h1]
          · simp [memRead, e, Ne.symm e]
        · rw [if_neg hv]
          by_cases e : b = a
          · simp [memRead, e]
          · simp [memRead, e, Ne.symm e]
      · rw [if_neg ek, memRead, memRead, ih h3]
        by_cases e : k = b
        · subst e
          rw [if_pos rfl, if_neg (Ne.symm ek), if_pos rfl]
        · rw [if_neg e, if_neg e]

theorem memWriteBytes_wf (bs : List Byte) : ∀ {m : Memory} (_ : Memory.wf m) (a : Nat),
    Memory.wf (memWriteBytes m a bs) := by
  induction bs with
  | nil => intro m h a; exact h
  | cons b bs ih => intro m h a; exact ih (memWrite_wf h a b) (a + 1)

/-- A read after a string store. -/
theorem memRead_memWriteBytes (bs : List Byte) : ∀ {m : Memory} (_ : Memory.wf m) (a b : Nat),
    memRead (memWriteBytes m a bs) b = if a ≤ b ∧ b < a + bs.length then bs.getD (b - a) 0 else memRead m b := by
  induction bs with
  | nil => intro m h a b; simp [memWriteBytes]
  | cons x bs ih =>
    intro m h a b
    rw [memWriteBytes, ih (memWrite_wf h a x), memRead_memWrite h]
    by_cases h1 : a + 1 ≤ b ∧ b < a + 1 + bs.length
    · rw [if_pos h1, if_pos (by simp; omega)]
      have : b - a = (b - (a + 1)) + 1 := by omega
      rw [this, List.getD_cons_succ]
    · rw [if_neg h1]
      by_cases h2 : b = a
      · subst h2
        simp
      · rw [if_neg h2, if_neg (by simp; omega)]

theorem mem_memWriteBytes (bs : List Byte) : ∀ {m : Memory} {a : Nat} {c : Host.Cell},
    c ∈ memWriteBytes m a bs → c ∈ m ∨ (a ≤ c.1 ∧ c.1 < a + bs.length) := by
  induction bs with
  | nil => intro m a c h; exact .inl h
  | cons b bs ih =>
    intro m a c h
    rcases ih h with h | h
    · rcases mem_memWrite h with h | rfl
      · exact .inl h
      · right; simp
    · right; simp only [List.length_cons]; omega

/-- In canonical form, equal reads are equal memories. -/
theorem memory_ext {m n : Memory} (hm : Memory.wf m) (hn : Memory.wf n) (h : ∀ a, memRead m a = memRead n a) : m = n := by
  induction m generalizing n with
  | nil =>
    cases n with
    | nil => rfl
    | cons d n =>
      have := h d.1
      obtain ⟨_, h2, _⟩ := (Memory.wf_cons_iff _ _).1 hn
      simp only [memRead, if_pos] at this
      exact absurd this.symm h2
  | cons c m ih =>
    obtain ⟨c1, c2, c3⟩ := (Memory.wf_cons_iff _ _).1 hm
    cases n with
    | nil =>
      have := h c.1
      simp only [memRead, if_pos] at this
      exact absurd this c2
    | cons d n =>
      obtain ⟨d1, d2, d3⟩ := (Memory.wf_cons_iff _ _).1 hn
      obtain ⟨k, x⟩ := c
      obtain ⟨l, y⟩ := d
      simp only at c1 c2 d1 d2
      have hkl : k = l := by
        by_contra hne
        rcases Nat.lt_or_gt_of_ne hne with hlt | hgt
        · have := h k
          rw [memRead, if_pos rfl, memRead, if_neg (Ne.symm hne), memRead_below fun e he => Nat.lt_trans hlt (d1 e he)] at this
          exact c2 this
        · have := h l
          rw [memRead, if_neg hne, memRead, if_pos rfl, memRead_below fun e he => Nat.lt_trans hgt (c1 e he)] at this
          exact d2 this.symm
      subst hkl
      have hxy : x = y := by simpa [memRead] using h k
      subst hxy
      rw [ih c3 d3]
      intro a
      by_cases e : k = a
      · subst e; rw [memRead_below c1, memRead_below d1]
      · simpa [memRead, e] using h a

theorem memReadBytes_length (m : Memory) (a n : Nat) : (memReadBytes m a n).length = n := by simp [memReadBytes]

theorem memReadBytes_getElem (m : Memory) (a n k : Nat) (h : k < (memReadBytes m a n).length) :
    (memReadBytes m a n)[k] = memRead m (a + k) := by simp [memReadBytes]

end Sys2Proof.Machine
end

