-- ==== Sys2Proof/Laws/Modes.lean ====
section
/-! SUPPORT. What the CMAC, CBC-MAC and counter-mode sequencers do to the whole state. -/

namespace Sys2Proof.Machine

/-- One absorbing iteration: the shape of every MAC loop. -/
def absorbStep (blk : Nat → Block) (i : Nat) (s : State) : State :=
  absorbLB { s with regBI := BitVec.ofNat 64 i, regLB := blk i }

theorem absorbLoop_eq (blk : Nat → Block) (n : Nat) : ∀ (lo : Nat) (s : State),
    ∃ sr lb bi rnd, forRange lo n (absorbStep blk) s = { s with
      regX := ((List.range' lo n).map blk).foldl (fun x b => encryptBlock s.rk (xorBlock x b)) s.regX
      regS := sr, regLB := lb, regBI := bi, regRND := rnd } := by
  induction n with
  | zero => intro lo s; exact ⟨s.regS, s.regLB, s.regBI, s.regRND, rfl⟩
  | succ n ih =>
    intro lo s
    obtain ⟨sr, lb, bi, rnd, h⟩ := ih (lo + 1) (absorbStep blk lo s)
    refine ⟨sr, lb, bi, rnd, ?_⟩
    rw [forRange, h, List.range'_succ, List.map_cons, List.foldl_cons, absorbStep, absorbLB_eq]

/-- The CMAC sequencer leaves CMAC of the message in X, and changes no register but S, X, LB, BI, RND and PHASE (R145). -/
theorem runCmac_eq (m : List Byte) (s : State) :
    ∃ sr lb bi rnd, runCmac m s = { s with
      phase := .macLast, regX := cmacTag s.rk s.k1 s.k2 m, regS := sr, regLB := lb, regBI := bi, regRND := rnd } := by
  obtain ⟨sr, lb, bi, rnd, h⟩ :=
    absorbLoop_eq (blockAt m) (cmacBlockCount m.length - 1) 0 { s with phase := .macMsg, regX := zeroBlock }
  have h' : cmacStep m = absorbStep (blockAt m) := rfl
  simp only [runCmac, h', h, absorbLB_eq, cmacTag, cbcChain, cmacBlocks, List.foldl_append, List.foldl_cons,
    List.foldl_nil, List.range_eq_range']
  exact ⟨_, _, _, _, rfl⟩

/-! ### The stream of CCM -/

theorem getD_append_right' (a b : List Byte) (i : Nat) (h : a.length ≤ i) :
    (a ++ b).getD i 0 = b.getD (i - a.length) 0 := by
  simp [List.getD_eq_getElem?_getD, List.getElem?_append_right h]

theorem getD_append_left' (a b : List Byte) (i : Nat) (h : i < a.length) :
    (a ++ b).getD i 0 = a.getD i 0 := by
  simp [List.getD_eq_getElem?_getD, List.getElem?_append_left h]

theorem getD_replicate_zero (n i : Nat) : (List.replicate n (0 : Byte)).getD i 0 = 0 := by
  by_cases h : i < n <;> simp [h]

theorem getD_beyond (a : List Byte) (i : Nat) (h : a.length ≤ i) : a.getD i 0 = 0 := by
  simp [List.getD_eq_getElem?_getD, List.getElem?_eq_none h]

theorem blockAt_get (l : List Byte) (j q : Nat) (hq : q < 16) : (blockAt l j)[q] = l.getD (16 * j + q) 0 := by
  simp [blockAt, blockOf]

theorem blockOf_toList (b : Block) : blockOf b.toList = b := by
  ext1 k hk; simp [blockOf]

theorem splitBlocks_append (a b : List Byte) (h : a.length % 16 = 0) :
    splitBlocks (a ++ b) = splitBlocks a ++ splitBlocks b := by
  have e : (a ++ b).length / 16 = a.length / 16 + b.length / 16 := by
    rw [List.length_append]; omega
  rw [splitBlocks, e, List.range_add, List.map_append, List.map_map]
  congr 1
  · refine List.map_congr_left fun j hj => ?_
    have hj := List.mem_range.1 hj
    ext1 q hq
    rw [blockAt_get _ _ _ hq, blockAt_get _ _ _ hq, getD_append_left' _ _ _ (by omega)]
  · refine List.map_congr_left fun j _ => ?_
    ext1 q hq
    simp only [Function.comp]
    rw [blockAt_get _ _ _ hq, blockAt_get _ _ _ hq, getD_append_right' _ _ _ (by omega)]
    congr 1; omega

theorem splitBlocks_block (b : Block) : splitBlocks b.toList = [b] := by
  have : blockAt b.toList 0 = b := by simp [blockAt, blockOf_toList]
  simp [splitBlocks, this]

theorem splitBlocks_fmtP (p : List Byte) :
    splitBlocks (fmtP p) = (List.range (dataBlockCount p.length)).map (msgBlock p) := by
  have e : (fmtP p).length / 16 = dataBlockCount p.length := by
    simp only [fmtP, List.length_append, List.length_replicate, dataBlockCount, pad16, ceil16]; omega
  rw [splitBlocks, e]
  refine List.map_congr_left fun j _ => ?_
  ext1 q hq
  rw [blockAt_get _ _ _ hq]
  simp only [msgBlock, Vector.getElem_ofFn, fmtP]
  by_cases h : 16 * j + q < p.length
  · rw [if_pos h, getD_append_left' _ _ _ h]
  · rw [if_neg h, getD_append_right' _ _ _ (by omega), getD_replicate_zero]

theorem fmtP_length (p : List Byte) : (fmtP p).length = ceil16 p.length := by
  simp only [fmtP, List.length_append, List.length_replicate, pad16, ceil16]; omega

theorem fmtA_length (aad : List Byte) : (fmtA aad).length = 16 * aadBlockCount aad.length := by
  by_cases h : aad = []
  · simp [fmtA, h, aadBlockCount]
  · have : 0 < aad.length := List.length_pos_iff.2 h
    simp only [fmtA, h, if_false, List.length_append, List.length_replicate, aadBlockCount, this, if_true, pad16, ceil16]
    omega

theorem splitBlocks_fmtA (aad : List Byte) :
    splitBlocks (fmtA aad) = (List.range (aadBlockCount aad.length)).map (aadBlock aad) := by
  rw [splitBlocks, fmtA_length, Nat.mul_div_cancel_left _ (by omega)]
  by_cases h : aad = []
  · simp [h, aadBlockCount]
  refine List.map_congr_left fun j _ => ?_
  ext1 q hq
  rw [blockAt_get _ _ _ hq]
  simp only [aadBlock, Vector.getElem_ofFn, fmtA, h, if_false, List.append_assoc]
  by_cases h1 : 16 * j + q < (aadHeader aad.length).length
  · rw [if_pos h1, getD_append_left' _ _ _ h1]
  · rw [if_neg h1, getD_append_right' _ _ _ (by omega)]
    by_cases h2 : 16 * j + q < (aadHeader aad.length).length + aad.length
    · rw [if_pos h2, getD_append_left' _ _ _ (by omega)]
    · rw [if_neg h2, getD_append_right' _ _ _ (by omega), getD_replicate_zero]

/-- The authenticated stream, block by block (R91, R162). -/
theorem splitBlocks_ccmStream (nonce : Nonce) (m : Nat) (aad p : List Byte) :
    splitBlocks (ccmStream nonce m aad p) =
      b0Block nonce m aad.length p.length ::
        ((List.range (aadBlockCount aad.length)).map (aadBlock aad)
          ++ (List.range (dataBlockCount p.length)).map (msgBlock p)) := by
  rw [ccmStream, List.append_assoc, splitBlocks_append _ _ (by simp), splitBlocks_block,
    splitBlocks_append _ _ (by rw [fmtA_length]; omega), splitBlocks_fmtA, splitBlocks_fmtP]
  rfl

theorem range'_map_shift {α : Type} (f : Nat → α) (n k : Nat) :
    (List.range' k n).map (fun i => f (i - k)) = (List.range n).map f := by
  rw [List.range'_eq_map_range, List.map_map]
  refine List.map_congr_left fun i _ => ?_
  simp

/-- The CBC-MAC sequencer leaves the raw CBC-MAC of the stream in X (R163). -/
theorem runCbcMac_eq (aad p : List Byte) (s : State) :
    ∃ sr lb bi rnd, runCbcMac aad p s = { s with
      phase := .macMsg, regX := cbcMac s.rk s.nonce s.mlen.toNat aad p
      regS := sr, regLB := lb, regBI := bi, regRND := rnd } := by
  have ha : macAadStep aad = absorbStep (fun i => aadBlock aad (i - 1)) := rfl
  have hm : macMsgStep (aadBlockCount aad.length) p
      = absorbStep (fun i => msgBlock p (i - (1 + aadBlockCount aad.length))) := by
    funext i s; rw [macMsgStep, absorbStep, Nat.sub_add_eq]
  obtain ⟨sr1, lb1, bi1, rnd1, h1⟩ := absorbLoop_eq (fun i => aadBlock aad (i - 1)) (aadBlockCount aad.length) 1
    { absorbLB { s with
        phase := .macB0, regX := zeroBlock, regBI := 0
        regLB := b0Block s.nonce s.mlen.toNat aad.length p.length } with phase := .macAad }
  simp only [runCbcMac, ha, hm, h1]
  obtain ⟨sr2, lb2, bi2, rnd2, h2⟩ := absorbLoop_eq (fun i => msgBlock p (i - (1 + aadBlockCount aad.length)))
    (dataBlockCount p.length) (1 + aadBlockCount aad.length)
    { s with
      phase := .macMsg
      regX := List.foldl (fun x b => encryptBlock s.rk (xorBlock x b))
        (encryptBlock s.rk (xorBlock zeroBlock (b0Block s.nonce s.mlen.toNat aad.length p.length)))
        ((List.range (aadBlockCount aad.length)).map (aadBlock aad))
      regS := sr1, regLB := lb1, regBI := bi1, regRND := rnd1 }
  refine ⟨sr2, lb2, bi2, rnd2, ?_⟩
  simp only [range'_map_shift] at h2
  simp only [absorbLB_eq, range'_map_shift, h2, cbcMac, cbcChain, splitBlocks_ccmStream, List.foldl_cons,
    List.foldl_append]

/-! ### Counter mode -/

theorem zipWith_take (d : List Byte) (ks : Block) : 
    List.zipWith (fun x y => x ^^^ y) (d.take 16) ks.toList
      = (List.range (min 16 d.length)).map (fun i => d.getD i 0 ^^^ ks.toList.getD i 0) := by
  apply List.ext_getElem
  · simp
  · intro i h1 h2
    have h1' : i < 16 ∧ i < d.length := by simp at h1; omega
    simp [h1'.1, h1'.2]

/-- The output bytes of the counter-mode loop after `n` chunks. -/
theorem ctrLoop_eq (d : List Byte) (n : Nat) : ∀ (lo : Nat) (s : State) (out : List Byte),
    lo + n ≤ 4096 →
    ∃ a sr ks ctr rnd, forRange lo n (ctrStep d) (s, out) =
      ({ s with regA := a, regS := sr, regKS := ks, regCTR := ctr, regRND := rnd },
        out ++ (List.range' lo n).flatMap fun j =>
          List.zipWith (fun x y => x ^^^ y) ((d.drop (16 * j)).take 16) (keystream s.rk s.nonce (j + 1)).toList) := by
  induction n with
  | zero => intro lo s out _; exact ⟨s.regA, s.regS, s.regKS, s.regCTR, s.regRND, by simp [forRange]⟩
  | succ n ih =>
    intro lo s out h
    obtain ⟨a, sr, ks, ctr, rnd, e⟩ := ih (lo + 1) (ctrStep d lo (s, out)).1 (ctrStep d lo (s, out)).2 (by omega)
    have hc : (BitVec.ofNat 16 (lo + 1)).toNat = lo + 1 := by simp; omega
    refine ⟨a, sr, ks, ctr, rnd, ?_⟩
    rw [forRange]
    refine Eq.trans e ?_
    simp only [ctrStep, keystreamBlock_eq, hc, List.range'_succ, List.flatMap_cons, List.append_assoc]

theorem ctrXor_chunks (rk : RoundKeys) (nonce : Nonce) (d : List Byte) :
    ((List.range' 0 (dataBlockCount d.length)).flatMap fun j =>
      List.zipWith (fun x y => x ^^^ y) ((d.drop (16 * j)).take 16) (keystream rk nonce (j + 1)).toList)
      = ctrXor rk nonce d := by
  have key : ∀ n, 16 * n < d.length + 16 →
      ((List.range' 0 n).flatMap fun j =>
        List.zipWith (fun x y => x ^^^ y) ((d.drop (16 * j)).take 16) (keystream rk nonce (j + 1)).toList)
        = (ctrXor rk nonce d).take (16 * n) := by
    intro n
    induction n with
    | zero => intro _; simp
    | succ n ih =>
      intro h
      rw [List.range'_concat, List.flatMap_append, ih (by omega)]
      simp only [List.flatMap_cons, List.flatMap_nil, List.append_nil]
      rw [Nat.mul_succ, List.take_add]
      congr 1
      apply List.ext_getElem
      · simp [ctrXor]
      · intro i h1 h2
        have h1' : i < 16 := by simp at h1; omega
        have e1 : (16 * n + i) % 16 = i := by omega
        have e2 : (1 + (16 * n + i) / 16) = n + 1 := by omega
        simp [ctrXor, e1, e2]
  rw [key _ (by simp only [dataBlockCount, ceil16]; omega), List.take_of_length_le]
  simp only [ctrXor, List.length_mapIdx, dataBlockCount, ceil16]; omega

/-- Counter mode leaves every register but A, S, KS, CTR, RND and PHASE, and its output is CTRXOR (R182). -/
theorem runCtr_eq (d : List Byte) (s : State) (h : d.length < 65536) :
    ∃ a sr ks ctr rnd, runCtr d s =
      ({ s with phase := .ctrData, regA := a, regS := sr, regKS := ks, regCTR := ctr, regRND := rnd },
        ctrXor s.rk s.nonce d) := by
  obtain ⟨a, sr, ks, ctr, rnd, e⟩ := ctrLoop_eq d (dataBlockCount d.length) 0 { s with phase := .ctrData } []
    (by simp only [dataBlockCount, ceil16]; omega)
  refine ⟨a, sr, ks, ctr, rnd, ?_⟩
  rw [runCtr, e, List.nil_append, ← ctrXor_chunks]

theorem runTagMask_eq (s : State) :
    ∃ a sr ks rnd, runTagMask s = { s with
      phase := .ctrS0, regCTR := 0, regA := a, regS := sr, regKS := ks, regS0 := keystream s.rk s.nonce 0, regRND := rnd } :=
  ⟨counterBlock s.nonce 0, keystream s.rk s.nonce 0, keystream s.rk s.nonce 0, 10, by
    rw [runTagMask, keystreamBlock_eq]; rfl⟩

end Sys2Proof.Machine
end

