-- ==== Sys2Proof/Laws/PerInstr.lean ====
section
/-! SUPPORT. Statements made per instruction: one lemma per constructor of Instr. -/

namespace Sys2Proof.Laws.Encodes

/-- The instruction's encoding decodes to it, and it is a command byte exactly when the host may issue it. -/
def Statement (i : Instr) : Prop :=
  decode (encode i) = .ok i ∧ ((∃ c, encode i = .cmd8 c) ↔ i.hostVisible = true)

theorem keyexp : Statement .keyexp := by simp [Statement, encode, decode, decodeCommand, Instr.hostVisible]
theorem encblk : Statement .encblk := by simp [Statement, encode, decode, decodeCommand, Instr.hostVisible]
theorem cmacinit : Statement .cmacinit := by simp [Statement, encode, decode, decodeCommand, Instr.hostVisible]
theorem cmacgen : Statement .cmacgen := by simp [Statement, encode, decode, decodeCommand, Instr.hostVisible]
theorem cmacvfy : Statement .cmacvfy := by simp [Statement, encode, decode, decodeCommand, Instr.hostVisible]
theorem ccminit : Statement .ccminit := by simp [Statement, encode, decode, decodeCommand, Instr.hostVisible]
theorem ccmenc : Statement .ccmenc := by simp [Statement, encode, decode, decodeCommand, Instr.hostVisible]
theorem ccmdec : Statement .ccmdec := by simp [Statement, encode, decode, decodeCommand, Instr.hostVisible]
theorem clear : Statement .clear := by simp [Statement, encode, decode, decodeCommand, Instr.hostVisible]
theorem subbytes : Statement .subbytes := by simp [Statement, encode, decode, decodeLabel, Instr.hostVisible]
theorem shiftrows : Statement .shiftrows := by simp [Statement, encode, decode, decodeLabel, Instr.hostVisible]
theorem mixcolumns : Statement .mixcolumns := by simp [Statement, encode, decode, decodeLabel, Instr.hostVisible]
theorem addroundkey : Statement .addroundkey := by simp [Statement, encode, decode, decodeLabel, Instr.hostVisible]
theorem ksword : Statement .ksword := by simp [Statement, encode, decode, decodeLabel, Instr.hostVisible]
theorem enccore : Statement .enccore := by simp [Statement, encode, decode, decodeLabel, Instr.hostVisible]
theorem dbl : Statement .dbl := by simp [Statement, encode, decode, decodeLabel, Instr.hostVisible]
theorem absorb : Statement .absorb := by simp [Statement, encode, decode, decodeLabel, Instr.hostVisible]
theorem ctrblk : Statement .ctrblk := by simp [Statement, encode, decode, decodeLabel, Instr.hostVisible]
theorem tagcmp : Statement .tagcmp := by simp [Statement, encode, decode, decodeLabel, Instr.hostVisible]

end Sys2Proof.Laws.Encodes
end

