-- ==== Sys2Proof/Laws/State.lean ====
section
/-! SUPPORT. One lemma per field per named update of State, each true by rfl, so that no later proof unfolds a record update. -/

namespace Sys2Proof.Machine

/-! ### prologue (R48) -/

@[simp] theorem prologue_keyin (s : State) : (prologue s).keyin = s.keyin := rfl
@[simp] theorem prologue_noncein (s : State) : (prologue s).noncein = s.noncein := rfl
@[simp] theorem prologue_tagin (s : State) : (prologue s).tagin = s.tagin := rfl
@[simp] theorem prologue_tagout (s : State) : (prologue s).tagout = s.tagout := rfl
@[simp] theorem prologue_klen (s : State) : (prologue s).klen = s.klen := rfl
@[simp] theorem prologue_nlen (s : State) : (prologue s).nlen = s.nlen := rfl
@[simp] theorem prologue_maclen (s : State) : (prologue s).maclen = s.maclen := rfl
@[simp] theorem prologue_tlen (s : State) : (prologue s).tlen = s.tlen := rfl
@[simp] theorem prologue_alen (s : State) : (prologue s).alen = s.alen := rfl
@[simp] theorem prologue_dlen (s : State) : (prologue s).dlen = s.dlen := rfl
@[simp] theorem prologue_olen (s : State) : (prologue s).olen = 0 := rfl
@[simp] theorem prologue_tolen (s : State) : (prologue s).tolen = 0 := rfl
@[simp] theorem prologue_done (s : State) : (prologue s).done = s.done := rfl
@[simp] theorem prologue_busy (s : State) : (prologue s).busy = true := rfl
@[simp] theorem prologue_kvalid (s : State) : (prologue s).kvalid = s.kvalid := rfl
@[simp] theorem prologue_skvalid (s : State) : (prologue s).skvalid = s.skvalid := rfl
@[simp] theorem prologue_ccmvalid (s : State) : (prologue s).ccmvalid = s.ccmvalid := rfl
@[simp] theorem prologue_ok (s : State) : (prologue s).ok = false := rfl
@[simp] theorem prologue_err (s : State) : (prologue s).err = .none := rfl
@[simp] theorem prologue_rk (s : State) : (prologue s).rk = s.rk := rfl
@[simp] theorem prologue_k1 (s : State) : (prologue s).k1 = s.k1 := rfl
@[simp] theorem prologue_k2 (s : State) : (prologue s).k2 = s.k2 := rfl
@[simp] theorem prologue_nonce (s : State) : (prologue s).nonce = s.nonce := rfl
@[simp] theorem prologue_mlen (s : State) : (prologue s).mlen = s.mlen := rfl
@[simp] theorem prologue_regS (s : State) : (prologue s).regS = s.regS := rfl
@[simp] theorem prologue_regX (s : State) : (prologue s).regX = s.regX := rfl
@[simp] theorem prologue_regA (s : State) : (prologue s).regA = s.regA := rfl
@[simp] theorem prologue_regKS (s : State) : (prologue s).regKS = s.regKS := rfl
@[simp] theorem prologue_regS0 (s : State) : (prologue s).regS0 = s.regS0 := rfl
@[simp] theorem prologue_regT (s : State) : (prologue s).regT = s.regT := rfl
@[simp] theorem prologue_regLB (s : State) : (prologue s).regLB = s.regLB := rfl
@[simp] theorem prologue_regCTR (s : State) : (prologue s).regCTR = s.regCTR := rfl
@[simp] theorem prologue_regRND (s : State) : (prologue s).regRND = s.regRND := rfl
@[simp] theorem prologue_regWI (s : State) : (prologue s).regWI = s.regWI := rfl
@[simp] theorem prologue_regBI (s : State) : (prologue s).regBI = s.regBI := rfl
@[simp] theorem prologue_phase (s : State) : (prologue s).phase = .validate := rfl
@[simp] theorem prologue_abuf (s : State) : (prologue s).abuf = s.abuf := rfl
@[simp] theorem prologue_din (s : State) : (prologue s).din = s.din := rfl
@[simp] theorem prologue_dout (s : State) : (prologue s).dout = s.dout := rfl
@[simp] theorem prologue_host (s : State) : (prologue s).host = s.host := rfl
@[simp] theorem prologue_got (s : State) : (prologue s).got = s.got := rfl

/-! ### clearWorking (R42) -/

@[simp] theorem clearWorking_keyin (s : State) : (clearWorking s).keyin = s.keyin := rfl
@[simp] theorem clearWorking_noncein (s : State) : (clearWorking s).noncein = s.noncein := rfl
@[simp] theorem clearWorking_tagin (s : State) : (clearWorking s).tagin = s.tagin := rfl
@[simp] theorem clearWorking_tagout (s : State) : (clearWorking s).tagout = s.tagout := rfl
@[simp] theorem clearWorking_klen (s : State) : (clearWorking s).klen = s.klen := rfl
@[simp] theorem clearWorking_nlen (s : State) : (clearWorking s).nlen = s.nlen := rfl
@[simp] theorem clearWorking_maclen (s : State) : (clearWorking s).maclen = s.maclen := rfl
@[simp] theorem clearWorking_tlen (s : State) : (clearWorking s).tlen = s.tlen := rfl
@[simp] theorem clearWorking_alen (s : State) : (clearWorking s).alen = s.alen := rfl
@[simp] theorem clearWorking_dlen (s : State) : (clearWorking s).dlen = s.dlen := rfl
@[simp] theorem clearWorking_olen (s : State) : (clearWorking s).olen = s.olen := rfl
@[simp] theorem clearWorking_tolen (s : State) : (clearWorking s).tolen = s.tolen := rfl
@[simp] theorem clearWorking_done (s : State) : (clearWorking s).done = s.done := rfl
@[simp] theorem clearWorking_busy (s : State) : (clearWorking s).busy = s.busy := rfl
@[simp] theorem clearWorking_kvalid (s : State) : (clearWorking s).kvalid = s.kvalid := rfl
@[simp] theorem clearWorking_skvalid (s : State) : (clearWorking s).skvalid = s.skvalid := rfl
@[simp] theorem clearWorking_ccmvalid (s : State) : (clearWorking s).ccmvalid = s.ccmvalid := rfl
@[simp] theorem clearWorking_ok (s : State) : (clearWorking s).ok = s.ok := rfl
@[simp] theorem clearWorking_err (s : State) : (clearWorking s).err = s.err := rfl
@[simp] theorem clearWorking_rk (s : State) : (clearWorking s).rk = s.rk := rfl
@[simp] theorem clearWorking_k1 (s : State) : (clearWorking s).k1 = s.k1 := rfl
@[simp] theorem clearWorking_k2 (s : State) : (clearWorking s).k2 = s.k2 := rfl
@[simp] theorem clearWorking_nonce (s : State) : (clearWorking s).nonce = s.nonce := rfl
@[simp] theorem clearWorking_mlen (s : State) : (clearWorking s).mlen = s.mlen := rfl
@[simp] theorem clearWorking_regS (s : State) : (clearWorking s).regS = zeroBlock := rfl
@[simp] theorem clearWorking_regX (s : State) : (clearWorking s).regX = zeroBlock := rfl
@[simp] theorem clearWorking_regA (s : State) : (clearWorking s).regA = zeroBlock := rfl
@[simp] theorem clearWorking_regKS (s : State) : (clearWorking s).regKS = zeroBlock := rfl
@[simp] theorem clearWorking_regS0 (s : State) : (clearWorking s).regS0 = zeroBlock := rfl
@[simp] theorem clearWorking_regT (s : State) : (clearWorking s).regT = zeroWord := rfl
@[simp] theorem clearWorking_regLB (s : State) : (clearWorking s).regLB = zeroBlock := rfl
@[simp] theorem clearWorking_regCTR (s : State) : (clearWorking s).regCTR = 0 := rfl
@[simp] theorem clearWorking_regRND (s : State) : (clearWorking s).regRND = 0 := rfl
@[simp] theorem clearWorking_regWI (s : State) : (clearWorking s).regWI = 0 := rfl
@[simp] theorem clearWorking_regBI (s : State) : (clearWorking s).regBI = 0 := rfl
@[simp] theorem clearWorking_phase (s : State) : (clearWorking s).phase = s.phase := rfl
@[simp] theorem clearWorking_abuf (s : State) : (clearWorking s).abuf = s.abuf := rfl
@[simp] theorem clearWorking_din (s : State) : (clearWorking s).din = s.din := rfl
@[simp] theorem clearWorking_dout (s : State) : (clearWorking s).dout = s.dout := rfl
@[simp] theorem clearWorking_host (s : State) : (clearWorking s).host = s.host := rfl
@[simp] theorem clearWorking_got (s : State) : (clearWorking s).got = s.got := rfl

/-! ### epilogue (R49) -/

@[simp] theorem epilogue_keyin (s : State) : (epilogue s).keyin = s.keyin := rfl
@[simp] theorem epilogue_noncein (s : State) : (epilogue s).noncein = s.noncein := rfl
@[simp] theorem epilogue_tagin (s : State) : (epilogue s).tagin = s.tagin := rfl
@[simp] theorem epilogue_tagout (s : State) : (epilogue s).tagout = s.tagout := rfl
@[simp] theorem epilogue_klen (s : State) : (epilogue s).klen = s.klen := rfl
@[simp] theorem epilogue_nlen (s : State) : (epilogue s).nlen = s.nlen := rfl
@[simp] theorem epilogue_maclen (s : State) : (epilogue s).maclen = s.maclen := rfl
@[simp] theorem epilogue_tlen (s : State) : (epilogue s).tlen = s.tlen := rfl
@[simp] theorem epilogue_alen (s : State) : (epilogue s).alen = s.alen := rfl
@[simp] theorem epilogue_dlen (s : State) : (epilogue s).dlen = s.dlen := rfl
@[simp] theorem epilogue_olen (s : State) : (epilogue s).olen = s.olen := rfl
@[simp] theorem epilogue_tolen (s : State) : (epilogue s).tolen = s.tolen := rfl
@[simp] theorem epilogue_done (s : State) : (epilogue s).done = true := rfl
@[simp] theorem epilogue_busy (s : State) : (epilogue s).busy = false := rfl
@[simp] theorem epilogue_kvalid (s : State) : (epilogue s).kvalid = s.kvalid := rfl
@[simp] theorem epilogue_skvalid (s : State) : (epilogue s).skvalid = s.skvalid := rfl
@[simp] theorem epilogue_ccmvalid (s : State) : (epilogue s).ccmvalid = s.ccmvalid := rfl
@[simp] theorem epilogue_ok (s : State) : (epilogue s).ok = s.ok := rfl
@[simp] theorem epilogue_err (s : State) : (epilogue s).err = s.err := rfl
@[simp] theorem epilogue_rk (s : State) : (epilogue s).rk = s.rk := rfl
@[simp] theorem epilogue_k1 (s : State) : (epilogue s).k1 = s.k1 := rfl
@[simp] theorem epilogue_k2 (s : State) : (epilogue s).k2 = s.k2 := rfl
@[simp] theorem epilogue_nonce (s : State) : (epilogue s).nonce = s.nonce := rfl
@[simp] theorem epilogue_mlen (s : State) : (epilogue s).mlen = s.mlen := rfl
@[simp] theorem epilogue_regS (s : State) : (epilogue s).regS = zeroBlock := rfl
@[simp] theorem epilogue_regX (s : State) : (epilogue s).regX = zeroBlock := rfl
@[simp] theorem epilogue_regA (s : State) : (epilogue s).regA = zeroBlock := rfl
@[simp] theorem epilogue_regKS (s : State) : (epilogue s).regKS = zeroBlock := rfl
@[simp] theorem epilogue_regS0 (s : State) : (epilogue s).regS0 = zeroBlock := rfl
@[simp] theorem epilogue_regT (s : State) : (epilogue s).regT = zeroWord := rfl
@[simp] theorem epilogue_regLB (s : State) : (epilogue s).regLB = zeroBlock := rfl
@[simp] theorem epilogue_regCTR (s : State) : (epilogue s).regCTR = 0 := rfl
@[simp] theorem epilogue_regRND (s : State) : (epilogue s).regRND = 0 := rfl
@[simp] theorem epilogue_regWI (s : State) : (epilogue s).regWI = 0 := rfl
@[simp] theorem epilogue_regBI (s : State) : (epilogue s).regBI = 0 := rfl
@[simp] theorem epilogue_phase (s : State) : (epilogue s).phase = .idle := rfl
@[simp] theorem epilogue_abuf (s : State) : (epilogue s).abuf = s.abuf := rfl
@[simp] theorem epilogue_din (s : State) : (epilogue s).din = s.din := rfl
@[simp] theorem epilogue_dout (s : State) : (epilogue s).dout = s.dout := rfl
@[simp] theorem epilogue_host (s : State) : (epilogue s).host = s.host := rfl
@[simp] theorem epilogue_got (s : State) : (epilogue s).got = s.got := rfl

/-! ### finish (R187) -/

@[simp] theorem finish_keyin (s : State) : (finish s).keyin = s.keyin := rfl
@[simp] theorem finish_noncein (s : State) : (finish s).noncein = s.noncein := rfl
@[simp] theorem finish_tagin (s : State) : (finish s).tagin = s.tagin := rfl
@[simp] theorem finish_tagout (s : State) : (finish s).tagout = s.tagout := rfl
@[simp] theorem finish_klen (s : State) : (finish s).klen = s.klen := rfl
@[simp] theorem finish_nlen (s : State) : (finish s).nlen = s.nlen := rfl
@[simp] theorem finish_maclen (s : State) : (finish s).maclen = s.maclen := rfl
@[simp] theorem finish_tlen (s : State) : (finish s).tlen = s.tlen := rfl
@[simp] theorem finish_alen (s : State) : (finish s).alen = s.alen := rfl
@[simp] theorem finish_dlen (s : State) : (finish s).dlen = s.dlen := rfl
@[simp] theorem finish_olen (s : State) : (finish s).olen = s.olen := rfl
@[simp] theorem finish_tolen (s : State) : (finish s).tolen = s.tolen := rfl
@[simp] theorem finish_done (s : State) : (finish s).done = true := rfl
@[simp] theorem finish_busy (s : State) : (finish s).busy = false := rfl
@[simp] theorem finish_kvalid (s : State) : (finish s).kvalid = s.kvalid := rfl
@[simp] theorem finish_skvalid (s : State) : (finish s).skvalid = s.skvalid := rfl
@[simp] theorem finish_ccmvalid (s : State) : (finish s).ccmvalid = s.ccmvalid := rfl
@[simp] theorem finish_ok (s : State) : (finish s).ok = s.ok := rfl
@[simp] theorem finish_err (s : State) : (finish s).err = s.err := rfl
@[simp] theorem finish_rk (s : State) : (finish s).rk = s.rk := rfl
@[simp] theorem finish_k1 (s : State) : (finish s).k1 = s.k1 := rfl
@[simp] theorem finish_k2 (s : State) : (finish s).k2 = s.k2 := rfl
@[simp] theorem finish_nonce (s : State) : (finish s).nonce = s.nonce := rfl
@[simp] theorem finish_mlen (s : State) : (finish s).mlen = s.mlen := rfl
@[simp] theorem finish_regS (s : State) : (finish s).regS = zeroBlock := rfl
@[simp] theorem finish_regX (s : State) : (finish s).regX = zeroBlock := rfl
@[simp] theorem finish_regA (s : State) : (finish s).regA = zeroBlock := rfl
@[simp] theorem finish_regKS (s : State) : (finish s).regKS = zeroBlock := rfl
@[simp] theorem finish_regS0 (s : State) : (finish s).regS0 = zeroBlock := rfl
@[simp] theorem finish_regT (s : State) : (finish s).regT = zeroWord := rfl
@[simp] theorem finish_regLB (s : State) : (finish s).regLB = zeroBlock := rfl
@[simp] theorem finish_regCTR (s : State) : (finish s).regCTR = 0 := rfl
@[simp] theorem finish_regRND (s : State) : (finish s).regRND = 0 := rfl
@[simp] theorem finish_regWI (s : State) : (finish s).regWI = 0 := rfl
@[simp] theorem finish_regBI (s : State) : (finish s).regBI = 0 := rfl
@[simp] theorem finish_phase (s : State) : (finish s).phase = .idle := rfl
@[simp] theorem finish_abuf (s : State) : (finish s).abuf = s.abuf := rfl
@[simp] theorem finish_din (s : State) : (finish s).din = s.din := rfl
@[simp] theorem finish_dout (s : State) : (finish s).dout = s.dout := rfl
@[simp] theorem finish_host (s : State) : (finish s).host = s.host := rfl
@[simp] theorem finish_got (s : State) : (finish s).got = s.got := rfl

/-! ### raise (R212) -/

@[simp] theorem raise_keyin (e : ErrCode) (s : State) : (raise e s).keyin = s.keyin := rfl
@[simp] theorem raise_noncein (e : ErrCode) (s : State) : (raise e s).noncein = s.noncein := rfl
@[simp] theorem raise_tagin (e : ErrCode) (s : State) : (raise e s).tagin = s.tagin := rfl
@[simp] theorem raise_tagout (e : ErrCode) (s : State) : (raise e s).tagout = s.tagout := rfl
@[simp] theorem raise_klen (e : ErrCode) (s : State) : (raise e s).klen = s.klen := rfl
@[simp] theorem raise_nlen (e : ErrCode) (s : State) : (raise e s).nlen = s.nlen := rfl
@[simp] theorem raise_maclen (e : ErrCode) (s : State) : (raise e s).maclen = s.maclen := rfl
@[simp] theorem raise_tlen (e : ErrCode) (s : State) : (raise e s).tlen = s.tlen := rfl
@[simp] theorem raise_alen (e : ErrCode) (s : State) : (raise e s).alen = s.alen := rfl
@[simp] theorem raise_dlen (e : ErrCode) (s : State) : (raise e s).dlen = s.dlen := rfl
@[simp] theorem raise_olen (e : ErrCode) (s : State) : (raise e s).olen = s.olen := rfl
@[simp] theorem raise_tolen (e : ErrCode) (s : State) : (raise e s).tolen = s.tolen := rfl
@[simp] theorem raise_done (e : ErrCode) (s : State) : (raise e s).done = true := rfl
@[simp] theorem raise_busy (e : ErrCode) (s : State) : (raise e s).busy = false := rfl
@[simp] theorem raise_kvalid (e : ErrCode) (s : State) : (raise e s).kvalid = s.kvalid := rfl
@[simp] theorem raise_skvalid (e : ErrCode) (s : State) : (raise e s).skvalid = s.skvalid := rfl
@[simp] theorem raise_ccmvalid (e : ErrCode) (s : State) : (raise e s).ccmvalid = s.ccmvalid := rfl
@[simp] theorem raise_ok (e : ErrCode) (s : State) : (raise e s).ok = false := rfl
@[simp] theorem raise_err (e : ErrCode) (s : State) : (raise e s).err = e := rfl
@[simp] theorem raise_rk (e : ErrCode) (s : State) : (raise e s).rk = s.rk := rfl
@[simp] theorem raise_k1 (e : ErrCode) (s : State) : (raise e s).k1 = s.k1 := rfl
@[simp] theorem raise_k2 (e : ErrCode) (s : State) : (raise e s).k2 = s.k2 := rfl
@[simp] theorem raise_nonce (e : ErrCode) (s : State) : (raise e s).nonce = s.nonce := rfl
@[simp] theorem raise_mlen (e : ErrCode) (s : State) : (raise e s).mlen = s.mlen := rfl
@[simp] theorem raise_regS (e : ErrCode) (s : State) : (raise e s).regS = zeroBlock := rfl
@[simp] theorem raise_regX (e : ErrCode) (s : State) : (raise e s).regX = zeroBlock := rfl
@[simp] theorem raise_regA (e : ErrCode) (s : State) : (raise e s).regA = zeroBlock := rfl
@[simp] theorem raise_regKS (e : ErrCode) (s : State) : (raise e s).regKS = zeroBlock := rfl
@[simp] theorem raise_regS0 (e : ErrCode) (s : State) : (raise e s).regS0 = zeroBlock := rfl
@[simp] theorem raise_regT (e : ErrCode) (s : State) : (raise e s).regT = zeroWord := rfl
@[simp] theorem raise_regLB (e : ErrCode) (s : State) : (raise e s).regLB = zeroBlock := rfl
@[simp] theorem raise_regCTR (e : ErrCode) (s : State) : (raise e s).regCTR = 0 := rfl
@[simp] theorem raise_regRND (e : ErrCode) (s : State) : (raise e s).regRND = 0 := rfl
@[simp] theorem raise_regWI (e : ErrCode) (s : State) : (raise e s).regWI = 0 := rfl
@[simp] theorem raise_regBI (e : ErrCode) (s : State) : (raise e s).regBI = 0 := rfl
@[simp] theorem raise_phase (e : ErrCode) (s : State) : (raise e s).phase = .idle := rfl
@[simp] theorem raise_abuf (e : ErrCode) (s : State) : (raise e s).abuf = s.abuf := rfl
@[simp] theorem raise_din (e : ErrCode) (s : State) : (raise e s).din = s.din := rfl
@[simp] theorem raise_dout (e : ErrCode) (s : State) : (raise e s).dout = s.dout := rfl
@[simp] theorem raise_host (e : ErrCode) (s : State) : (raise e s).host = s.host := rfl
@[simp] theorem raise_got (e : ErrCode) (s : State) : (raise e s).got = s.got := rfl

/-! ### resetAll (R47) -/

@[simp] theorem resetAll_keyin (s : State) : (resetAll s).keyin = State.reset.keyin := rfl
@[simp] theorem resetAll_noncein (s : State) : (resetAll s).noncein = State.reset.noncein := rfl
@[simp] theorem resetAll_tagin (s : State) : (resetAll s).tagin = State.reset.tagin := rfl
@[simp] theorem resetAll_tagout (s : State) : (resetAll s).tagout = State.reset.tagout := rfl
@[simp] theorem resetAll_klen (s : State) : (resetAll s).klen = State.reset.klen := rfl
@[simp] theorem resetAll_nlen (s : State) : (resetAll s).nlen = State.reset.nlen := rfl
@[simp] theorem resetAll_maclen (s : State) : (resetAll s).maclen = State.reset.maclen := rfl
@[simp] theorem resetAll_tlen (s : State) : (resetAll s).tlen = State.reset.tlen := rfl
@[simp] theorem resetAll_alen (s : State) : (resetAll s).alen = State.reset.alen := rfl
@[simp] theorem resetAll_dlen (s : State) : (resetAll s).dlen = State.reset.dlen := rfl
@[simp] theorem resetAll_olen (s : State) : (resetAll s).olen = State.reset.olen := rfl
@[simp] theorem resetAll_tolen (s : State) : (resetAll s).tolen = State.reset.tolen := rfl
@[simp] theorem resetAll_done (s : State) : (resetAll s).done = State.reset.done := rfl
@[simp] theorem resetAll_busy (s : State) : (resetAll s).busy = State.reset.busy := rfl
@[simp] theorem resetAll_kvalid (s : State) : (resetAll s).kvalid = State.reset.kvalid := rfl
@[simp] theorem resetAll_skvalid (s : State) : (resetAll s).skvalid = State.reset.skvalid := rfl
@[simp] theorem resetAll_ccmvalid (s : State) : (resetAll s).ccmvalid = State.reset.ccmvalid := rfl
@[simp] theorem resetAll_ok (s : State) : (resetAll s).ok = State.reset.ok := rfl
@[simp] theorem resetAll_err (s : State) : (resetAll s).err = State.reset.err := rfl
@[simp] theorem resetAll_rk (s : State) : (resetAll s).rk = State.reset.rk := rfl
@[simp] theorem resetAll_k1 (s : State) : (resetAll s).k1 = State.reset.k1 := rfl
@[simp] theorem resetAll_k2 (s : State) : (resetAll s).k2 = State.reset.k2 := rfl
@[simp] theorem resetAll_nonce (s : State) : (resetAll s).nonce = State.reset.nonce := rfl
@[simp] theorem resetAll_mlen (s : State) : (resetAll s).mlen = State.reset.mlen := rfl
@[simp] theorem resetAll_regS (s : State) : (resetAll s).regS = State.reset.regS := rfl
@[simp] theorem resetAll_regX (s : State) : (resetAll s).regX = State.reset.regX := rfl
@[simp] theorem resetAll_regA (s : State) : (resetAll s).regA = State.reset.regA := rfl
@[simp] theorem resetAll_regKS (s : State) : (resetAll s).regKS = State.reset.regKS := rfl
@[simp] theorem resetAll_regS0 (s : State) : (resetAll s).regS0 = State.reset.regS0 := rfl
@[simp] theorem resetAll_regT (s : State) : (resetAll s).regT = State.reset.regT := rfl
@[simp] theorem resetAll_regLB (s : State) : (resetAll s).regLB = State.reset.regLB := rfl
@[simp] theorem resetAll_regCTR (s : State) : (resetAll s).regCTR = State.reset.regCTR := rfl
@[simp] theorem resetAll_regRND (s : State) : (resetAll s).regRND = State.reset.regRND := rfl
@[simp] theorem resetAll_regWI (s : State) : (resetAll s).regWI = State.reset.regWI := rfl
@[simp] theorem resetAll_regBI (s : State) : (resetAll s).regBI = State.reset.regBI := rfl
@[simp] theorem resetAll_phase (s : State) : (resetAll s).phase = State.reset.phase := rfl
@[simp] theorem resetAll_abuf (s : State) : (resetAll s).abuf = State.reset.abuf := rfl
@[simp] theorem resetAll_din (s : State) : (resetAll s).din = State.reset.din := rfl
@[simp] theorem resetAll_dout (s : State) : (resetAll s).dout = State.reset.dout := rfl
@[simp] theorem resetAll_host (s : State) : (resetAll s).host = s.host := rfl
@[simp] theorem resetAll_got (s : State) : (resetAll s).got = s.got := rfl

/-! ### setValid (R41) -/

@[simp] theorem setValid_keyin (k sk ccm : Bool) (s : State) : (setValid k sk ccm s).keyin = s.keyin := rfl
@[simp] theorem setValid_noncein (k sk ccm : Bool) (s : State) : (setValid k sk ccm s).noncein = s.noncein := rfl
@[simp] theorem setValid_tagin (k sk ccm : Bool) (s : State) : (setValid k sk ccm s).tagin = s.tagin := rfl
@[simp] theorem setValid_tagout (k sk ccm : Bool) (s : State) : (setValid k sk ccm s).tagout = s.tagout := rfl
@[simp] theorem setValid_klen (k sk ccm : Bool) (s : State) : (setValid k sk ccm s).klen = s.klen := rfl
@[simp] theorem setValid_nlen (k sk ccm : Bool) (s : State) : (setValid k sk ccm s).nlen = s.nlen := rfl
@[simp] theorem setValid_maclen (k sk ccm : Bool) (s : State) : (setValid k sk ccm s).maclen = s.maclen := rfl
@[simp] theorem setValid_tlen (k sk ccm : Bool) (s : State) : (setValid k sk ccm s).tlen = s.tlen := rfl
@[simp] theorem setValid_alen (k sk ccm : Bool) (s : State) : (setValid k sk ccm s).alen = s.alen := rfl
@[simp] theorem setValid_dlen (k sk ccm : Bool) (s : State) : (setValid k sk ccm s).dlen = s.dlen := rfl
@[simp] theorem setValid_olen (k sk ccm : Bool) (s : State) : (setValid k sk ccm s).olen = s.olen := rfl
@[simp] theorem setValid_tolen (k sk ccm : Bool) (s : State) : (setValid k sk ccm s).tolen = s.tolen := rfl
@[simp] theorem setValid_done (k sk ccm : Bool) (s : State) : (setValid k sk ccm s).done = s.done := rfl
@[simp] theorem setValid_busy (k sk ccm : Bool) (s : State) : (setValid k sk ccm s).busy = s.busy := rfl
@[simp] theorem setValid_kvalid (k sk ccm : Bool) (s : State) : (setValid k sk ccm s).kvalid = k := rfl
@[simp] theorem setValid_skvalid (k sk ccm : Bool) (s : State) : (setValid k sk ccm s).skvalid = sk := rfl
@[simp] theorem setValid_ccmvalid (k sk ccm : Bool) (s : State) : (setValid k sk ccm s).ccmvalid = ccm := rfl
@[simp] theorem setValid_ok (k sk ccm : Bool) (s : State) : (setValid k sk ccm s).ok = s.ok := rfl
@[simp] theorem setValid_err (k sk ccm : Bool) (s : State) : (setValid k sk ccm s).err = s.err := rfl
@[simp] theorem setValid_rk (k sk ccm : Bool) (s : State) : (setValid k sk ccm s).rk = s.rk := rfl
@[simp] theorem setValid_k1 (k sk ccm : Bool) (s : State) : (setValid k sk ccm s).k1 = s.k1 := rfl
@[simp] theorem setValid_k2 (k sk ccm : Bool) (s : State) : (setValid k sk ccm s).k2 = s.k2 := rfl
@[simp] theorem setValid_nonce (k sk ccm : Bool) (s : State) : (setValid k sk ccm s).nonce = s.nonce := rfl
@[simp] theorem setValid_mlen (k sk ccm : Bool) (s : State) : (setValid k sk ccm s).mlen = s.mlen := rfl
@[simp] theorem setValid_regS (k sk ccm : Bool) (s : State) : (setValid k sk ccm s).regS = s.regS := rfl
@[simp] theorem setValid_regX (k sk ccm : Bool) (s : State) : (setValid k sk ccm s).regX = s.regX := rfl
@[simp] theorem setValid_regA (k sk ccm : Bool) (s : State) : (setValid k sk ccm s).regA = s.regA := rfl
@[simp] theorem setValid_regKS (k sk ccm : Bool) (s : State) : (setValid k sk ccm s).regKS = s.regKS := rfl
@[simp] theorem setValid_regS0 (k sk ccm : Bool) (s : State) : (setValid k sk ccm s).regS0 = s.regS0 := rfl
@[simp] theorem setValid_regT (k sk ccm : Bool) (s : State) : (setValid k sk ccm s).regT = s.regT := rfl
@[simp] theorem setValid_regLB (k sk ccm : Bool) (s : State) : (setValid k sk ccm s).regLB = s.regLB := rfl
@[simp] theorem setValid_regCTR (k sk ccm : Bool) (s : State) : (setValid k sk ccm s).regCTR = s.regCTR := rfl
@[simp] theorem setValid_regRND (k sk ccm : Bool) (s : State) : (setValid k sk ccm s).regRND = s.regRND := rfl
@[simp] theorem setValid_regWI (k sk ccm : Bool) (s : State) : (setValid k sk ccm s).regWI = s.regWI := rfl
@[simp] theorem setValid_regBI (k sk ccm : Bool) (s : State) : (setValid k sk ccm s).regBI = s.regBI := rfl
@[simp] theorem setValid_phase (k sk ccm : Bool) (s : State) : (setValid k sk ccm s).phase = s.phase := rfl
@[simp] theorem setValid_abuf (k sk ccm : Bool) (s : State) : (setValid k sk ccm s).abuf = s.abuf := rfl
@[simp] theorem setValid_din (k sk ccm : Bool) (s : State) : (setValid k sk ccm s).din = s.din := rfl
@[simp] theorem setValid_dout (k sk ccm : Bool) (s : State) : (setValid k sk ccm s).dout = s.dout := rfl
@[simp] theorem setValid_host (k sk ccm : Bool) (s : State) : (setValid k sk ccm s).host = s.host := rfl
@[simp] theorem setValid_got (k sk ccm : Bool) (s : State) : (setValid k sk ccm s).got = s.got := rfl

/-! ### succeed (R49) -/

@[simp] theorem succeed_keyin (s : State) : (succeed s).keyin = s.keyin := rfl
@[simp] theorem succeed_noncein (s : State) : (succeed s).noncein = s.noncein := rfl
@[simp] theorem succeed_tagin (s : State) : (succeed s).tagin = s.tagin := rfl
@[simp] theorem succeed_tagout (s : State) : (succeed s).tagout = s.tagout := rfl
@[simp] theorem succeed_klen (s : State) : (succeed s).klen = s.klen := rfl
@[simp] theorem succeed_nlen (s : State) : (succeed s).nlen = s.nlen := rfl
@[simp] theorem succeed_maclen (s : State) : (succeed s).maclen = s.maclen := rfl
@[simp] theorem succeed_tlen (s : State) : (succeed s).tlen = s.tlen := rfl
@[simp] theorem succeed_alen (s : State) : (succeed s).alen = s.alen := rfl
@[simp] theorem succeed_dlen (s : State) : (succeed s).dlen = s.dlen := rfl
@[simp] theorem succeed_olen (s : State) : (succeed s).olen = s.olen := rfl
@[simp] theorem succeed_tolen (s : State) : (succeed s).tolen = s.tolen := rfl
@[simp] theorem succeed_done (s : State) : (succeed s).done = s.done := rfl
@[simp] theorem succeed_busy (s : State) : (succeed s).busy = s.busy := rfl
@[simp] theorem succeed_kvalid (s : State) : (succeed s).kvalid = s.kvalid := rfl
@[simp] theorem succeed_skvalid (s : State) : (succeed s).skvalid = s.skvalid := rfl
@[simp] theorem succeed_ccmvalid (s : State) : (succeed s).ccmvalid = s.ccmvalid := rfl
@[simp] theorem succeed_ok (s : State) : (succeed s).ok = true := rfl
@[simp] theorem succeed_err (s : State) : (succeed s).err = s.err := rfl
@[simp] theorem succeed_rk (s : State) : (succeed s).rk = s.rk := rfl
@[simp] theorem succeed_k1 (s : State) : (succeed s).k1 = s.k1 := rfl
@[simp] theorem succeed_k2 (s : State) : (succeed s).k2 = s.k2 := rfl
@[simp] theorem succeed_nonce (s : State) : (succeed s).nonce = s.nonce := rfl
@[simp] theorem succeed_mlen (s : State) : (succeed s).mlen = s.mlen := rfl
@[simp] theorem succeed_regS (s : State) : (succeed s).regS = s.regS := rfl
@[simp] theorem succeed_regX (s : State) : (succeed s).regX = s.regX := rfl
@[simp] theorem succeed_regA (s : State) : (succeed s).regA = s.regA := rfl
@[simp] theorem succeed_regKS (s : State) : (succeed s).regKS = s.regKS := rfl
@[simp] theorem succeed_regS0 (s : State) : (succeed s).regS0 = s.regS0 := rfl
@[simp] theorem succeed_regT (s : State) : (succeed s).regT = s.regT := rfl
@[simp] theorem succeed_regLB (s : State) : (succeed s).regLB = s.regLB := rfl
@[simp] theorem succeed_regCTR (s : State) : (succeed s).regCTR = s.regCTR := rfl
@[simp] theorem succeed_regRND (s : State) : (succeed s).regRND = s.regRND := rfl
@[simp] theorem succeed_regWI (s : State) : (succeed s).regWI = s.regWI := rfl
@[simp] theorem succeed_regBI (s : State) : (succeed s).regBI = s.regBI := rfl
@[simp] theorem succeed_phase (s : State) : (succeed s).phase = s.phase := rfl
@[simp] theorem succeed_abuf (s : State) : (succeed s).abuf = s.abuf := rfl
@[simp] theorem succeed_din (s : State) : (succeed s).din = s.din := rfl
@[simp] theorem succeed_dout (s : State) : (succeed s).dout = s.dout := rfl
@[simp] theorem succeed_host (s : State) : (succeed s).host = s.host := rfl
@[simp] theorem succeed_got (s : State) : (succeed s).got = s.got := rfl

/-! ### answer (R196) -/

@[simp] theorem answer_keyin (v : BitVec 64) (s : State) : (answer v s).keyin = s.keyin := rfl
@[simp] theorem answer_noncein (v : BitVec 64) (s : State) : (answer v s).noncein = s.noncein := rfl
@[simp] theorem answer_tagin (v : BitVec 64) (s : State) : (answer v s).tagin = s.tagin := rfl
@[simp] theorem answer_tagout (v : BitVec 64) (s : State) : (answer v s).tagout = s.tagout := rfl
@[simp] theorem answer_klen (v : BitVec 64) (s : State) : (answer v s).klen = s.klen := rfl
@[simp] theorem answer_nlen (v : BitVec 64) (s : State) : (answer v s).nlen = s.nlen := rfl
@[simp] theorem answer_maclen (v : BitVec 64) (s : State) : (answer v s).maclen = s.maclen := rfl
@[simp] theorem answer_tlen (v : BitVec 64) (s : State) : (answer v s).tlen = s.tlen := rfl
@[simp] theorem answer_alen (v : BitVec 64) (s : State) : (answer v s).alen = s.alen := rfl
@[simp] theorem answer_dlen (v : BitVec 64) (s : State) : (answer v s).dlen = s.dlen := rfl
@[simp] theorem answer_olen (v : BitVec 64) (s : State) : (answer v s).olen = s.olen := rfl
@[simp] theorem answer_tolen (v : BitVec 64) (s : State) : (answer v s).tolen = s.tolen := rfl
@[simp] theorem answer_done (v : BitVec 64) (s : State) : (answer v s).done = s.done := rfl
@[simp] theorem answer_busy (v : BitVec 64) (s : State) : (answer v s).busy = s.busy := rfl
@[simp] theorem answer_kvalid (v : BitVec 64) (s : State) : (answer v s).kvalid = s.kvalid := rfl
@[simp] theorem answer_skvalid (v : BitVec 64) (s : State) : (answer v s).skvalid = s.skvalid := rfl
@[simp] theorem answer_ccmvalid (v : BitVec 64) (s : State) : (answer v s).ccmvalid = s.ccmvalid := rfl
@[simp] theorem answer_ok (v : BitVec 64) (s : State) : (answer v s).ok = s.ok := rfl
@[simp] theorem answer_err (v : BitVec 64) (s : State) : (answer v s).err = s.err := rfl
@[simp] theorem answer_rk (v : BitVec 64) (s : State) : (answer v s).rk = s.rk := rfl
@[simp] theorem answer_k1 (v : BitVec 64) (s : State) : (answer v s).k1 = s.k1 := rfl
@[simp] theorem answer_k2 (v : BitVec 64) (s : State) : (answer v s).k2 = s.k2 := rfl
@[simp] theorem answer_nonce (v : BitVec 64) (s : State) : (answer v s).nonce = s.nonce := rfl
@[simp] theorem answer_mlen (v : BitVec 64) (s : State) : (answer v s).mlen = s.mlen := rfl
@[simp] theorem answer_regS (v : BitVec 64) (s : State) : (answer v s).regS = s.regS := rfl
@[simp] theorem answer_regX (v : BitVec 64) (s : State) : (answer v s).regX = s.regX := rfl
@[simp] theorem answer_regA (v : BitVec 64) (s : State) : (answer v s).regA = s.regA := rfl
@[simp] theorem answer_regKS (v : BitVec 64) (s : State) : (answer v s).regKS = s.regKS := rfl
@[simp] theorem answer_regS0 (v : BitVec 64) (s : State) : (answer v s).regS0 = s.regS0 := rfl
@[simp] theorem answer_regT (v : BitVec 64) (s : State) : (answer v s).regT = s.regT := rfl
@[simp] theorem answer_regLB (v : BitVec 64) (s : State) : (answer v s).regLB = s.regLB := rfl
@[simp] theorem answer_regCTR (v : BitVec 64) (s : State) : (answer v s).regCTR = s.regCTR := rfl
@[simp] theorem answer_regRND (v : BitVec 64) (s : State) : (answer v s).regRND = s.regRND := rfl
@[simp] theorem answer_regWI (v : BitVec 64) (s : State) : (answer v s).regWI = s.regWI := rfl
@[simp] theorem answer_regBI (v : BitVec 64) (s : State) : (answer v s).regBI = s.regBI := rfl
@[simp] theorem answer_phase (v : BitVec 64) (s : State) : (answer v s).phase = s.phase := rfl
@[simp] theorem answer_abuf (v : BitVec 64) (s : State) : (answer v s).abuf = s.abuf := rfl
@[simp] theorem answer_din (v : BitVec 64) (s : State) : (answer v s).din = s.din := rfl
@[simp] theorem answer_dout (v : BitVec 64) (s : State) : (answer v s).dout = s.dout := rfl
@[simp] theorem answer_host (v : BitVec 64) (s : State) : (answer v s).host = s.host := rfl
@[simp] theorem answer_got (v : BitVec 64) (s : State) : (answer v s).got = v :: s.got := rfl

/-! ### atRest (R49) -/

@[simp] theorem atRest_keyin (s : State) : (atRest s).keyin = s.keyin := rfl
@[simp] theorem atRest_noncein (s : State) : (atRest s).noncein = s.noncein := rfl
@[simp] theorem atRest_tagin (s : State) : (atRest s).tagin = s.tagin := rfl
@[simp] theorem atRest_tagout (s : State) : (atRest s).tagout = s.tagout := rfl
@[simp] theorem atRest_klen (s : State) : (atRest s).klen = s.klen := rfl
@[simp] theorem atRest_nlen (s : State) : (atRest s).nlen = s.nlen := rfl
@[simp] theorem atRest_maclen (s : State) : (atRest s).maclen = s.maclen := rfl
@[simp] theorem atRest_tlen (s : State) : (atRest s).tlen = s.tlen := rfl
@[simp] theorem atRest_alen (s : State) : (atRest s).alen = s.alen := rfl
@[simp] theorem atRest_dlen (s : State) : (atRest s).dlen = s.dlen := rfl
@[simp] theorem atRest_olen (s : State) : (atRest s).olen = s.olen := rfl
@[simp] theorem atRest_tolen (s : State) : (atRest s).tolen = s.tolen := rfl
@[simp] theorem atRest_done (s : State) : (atRest s).done = true := rfl
@[simp] theorem atRest_busy (s : State) : (atRest s).busy = false := rfl
@[simp] theorem atRest_kvalid (s : State) : (atRest s).kvalid = s.kvalid := rfl
@[simp] theorem atRest_skvalid (s : State) : (atRest s).skvalid = s.skvalid := rfl
@[simp] theorem atRest_ccmvalid (s : State) : (atRest s).ccmvalid = s.ccmvalid := rfl
@[simp] theorem atRest_ok (s : State) : (atRest s).ok = s.ok := rfl
@[simp] theorem atRest_err (s : State) : (atRest s).err = s.err := rfl
@[simp] theorem atRest_rk (s : State) : (atRest s).rk = s.rk := rfl
@[simp] theorem atRest_k1 (s : State) : (atRest s).k1 = s.k1 := rfl
@[simp] theorem atRest_k2 (s : State) : (atRest s).k2 = s.k2 := rfl
@[simp] theorem atRest_nonce (s : State) : (atRest s).nonce = s.nonce := rfl
@[simp] theorem atRest_mlen (s : State) : (atRest s).mlen = s.mlen := rfl
@[simp] theorem atRest_regS (s : State) : (atRest s).regS = zeroBlock := rfl
@[simp] theorem atRest_regX (s : State) : (atRest s).regX = zeroBlock := rfl
@[simp] theorem atRest_regA (s : State) : (atRest s).regA = zeroBlock := rfl
@[simp] theorem atRest_regKS (s : State) : (atRest s).regKS = zeroBlock := rfl
@[simp] theorem atRest_regS0 (s : State) : (atRest s).regS0 = zeroBlock := rfl
@[simp] theorem atRest_regT (s : State) : (atRest s).regT = zeroWord := rfl
@[simp] theorem atRest_regLB (s : State) : (atRest s).regLB = zeroBlock := rfl
@[simp] theorem atRest_regCTR (s : State) : (atRest s).regCTR = 0 := rfl
@[simp] theorem atRest_regRND (s : State) : (atRest s).regRND = 0 := rfl
@[simp] theorem atRest_regWI (s : State) : (atRest s).regWI = 0 := rfl
@[simp] theorem atRest_regBI (s : State) : (atRest s).regBI = 0 := rfl
@[simp] theorem atRest_phase (s : State) : (atRest s).phase = .idle := rfl
@[simp] theorem atRest_abuf (s : State) : (atRest s).abuf = s.abuf := rfl
@[simp] theorem atRest_din (s : State) : (atRest s).din = s.din := rfl
@[simp] theorem atRest_dout (s : State) : (atRest s).dout = s.dout := rfl
@[simp] theorem atRest_host (s : State) : (atRest s).host = s.host := rfl
@[simp] theorem atRest_got (s : State) : (atRest s).got = s.got := rfl

/-! ### failed (R212) -/

@[simp] theorem failed_keyin (e : ErrCode) (s : State) : (failed e s).keyin = s.keyin := rfl
@[simp] theorem failed_noncein (e : ErrCode) (s : State) : (failed e s).noncein = s.noncein := rfl
@[simp] theorem failed_tagin (e : ErrCode) (s : State) : (failed e s).tagin = s.tagin := rfl
@[simp] theorem failed_tagout (e : ErrCode) (s : State) : (failed e s).tagout = s.tagout := rfl
@[simp] theorem failed_klen (e : ErrCode) (s : State) : (failed e s).klen = s.klen := rfl
@[simp] theorem failed_nlen (e : ErrCode) (s : State) : (failed e s).nlen = s.nlen := rfl
@[simp] theorem failed_maclen (e : ErrCode) (s : State) : (failed e s).maclen = s.maclen := rfl
@[simp] theorem failed_tlen (e : ErrCode) (s : State) : (failed e s).tlen = s.tlen := rfl
@[simp] theorem failed_alen (e : ErrCode) (s : State) : (failed e s).alen = s.alen := rfl
@[simp] theorem failed_dlen (e : ErrCode) (s : State) : (failed e s).dlen = s.dlen := rfl
@[simp] theorem failed_olen (e : ErrCode) (s : State) : (failed e s).olen = 0 := rfl
@[simp] theorem failed_tolen (e : ErrCode) (s : State) : (failed e s).tolen = 0 := rfl
@[simp] theorem failed_done (e : ErrCode) (s : State) : (failed e s).done = true := rfl
@[simp] theorem failed_busy (e : ErrCode) (s : State) : (failed e s).busy = false := rfl
@[simp] theorem failed_kvalid (e : ErrCode) (s : State) : (failed e s).kvalid = s.kvalid := rfl
@[simp] theorem failed_skvalid (e : ErrCode) (s : State) : (failed e s).skvalid = s.skvalid := rfl
@[simp] theorem failed_ccmvalid (e : ErrCode) (s : State) : (failed e s).ccmvalid = s.ccmvalid := rfl
@[simp] theorem failed_ok (e : ErrCode) (s : State) : (failed e s).ok = false := rfl
@[simp] theorem failed_err (e : ErrCode) (s : State) : (failed e s).err = e := rfl
@[simp] theorem failed_rk (e : ErrCode) (s : State) : (failed e s).rk = s.rk := rfl
@[simp] theorem failed_k1 (e : ErrCode) (s : State) : (failed e s).k1 = s.k1 := rfl
@[simp] theorem failed_k2 (e : ErrCode) (s : State) : (failed e s).k2 = s.k2 := rfl
@[simp] theorem failed_nonce (e : ErrCode) (s : State) : (failed e s).nonce = s.nonce := rfl
@[simp] theorem failed_mlen (e : ErrCode) (s : State) : (failed e s).mlen = s.mlen := rfl
@[simp] theorem failed_regS (e : ErrCode) (s : State) : (failed e s).regS = zeroBlock := rfl
@[simp] theorem failed_regX (e : ErrCode) (s : State) : (failed e s).regX = zeroBlock := rfl
@[simp] theorem failed_regA (e : ErrCode) (s : State) : (failed e s).regA = zeroBlock := rfl
@[simp] theorem failed_regKS (e : ErrCode) (s : State) : (failed e s).regKS = zeroBlock := rfl
@[simp] theorem failed_regS0 (e : ErrCode) (s : State) : (failed e s).regS0 = zeroBlock := rfl
@[simp] theorem failed_regT (e : ErrCode) (s : State) : (failed e s).regT = zeroWord := rfl
@[simp] theorem failed_regLB (e : ErrCode) (s : State) : (failed e s).regLB = zeroBlock := rfl
@[simp] theorem failed_regCTR (e : ErrCode) (s : State) : (failed e s).regCTR = 0 := rfl
@[simp] theorem failed_regRND (e : ErrCode) (s : State) : (failed e s).regRND = 0 := rfl
@[simp] theorem failed_regWI (e : ErrCode) (s : State) : (failed e s).regWI = 0 := rfl
@[simp] theorem failed_regBI (e : ErrCode) (s : State) : (failed e s).regBI = 0 := rfl
@[simp] theorem failed_phase (e : ErrCode) (s : State) : (failed e s).phase = .idle := rfl
@[simp] theorem failed_abuf (e : ErrCode) (s : State) : (failed e s).abuf = s.abuf := rfl
@[simp] theorem failed_din (e : ErrCode) (s : State) : (failed e s).din = s.din := rfl
@[simp] theorem failed_dout (e : ErrCode) (s : State) : (failed e s).dout = s.dout := rfl
@[simp] theorem failed_host (e : ErrCode) (s : State) : (failed e s).host = s.host := rfl
@[simp] theorem failed_got (e : ErrCode) (s : State) : (failed e s).got = s.got := rfl

/-! ### succeeded (R49) -/

@[simp] theorem succeeded_keyin (s : State) : (succeeded s).keyin = s.keyin := rfl
@[simp] theorem succeeded_noncein (s : State) : (succeeded s).noncein = s.noncein := rfl
@[simp] theorem succeeded_tagin (s : State) : (succeeded s).tagin = s.tagin := rfl
@[simp] theorem succeeded_tagout (s : State) : (succeeded s).tagout = s.tagout := rfl
@[simp] theorem succeeded_klen (s : State) : (succeeded s).klen = s.klen := rfl
@[simp] theorem succeeded_nlen (s : State) : (succeeded s).nlen = s.nlen := rfl
@[simp] theorem succeeded_maclen (s : State) : (succeeded s).maclen = s.maclen := rfl
@[simp] theorem succeeded_tlen (s : State) : (succeeded s).tlen = s.tlen := rfl
@[simp] theorem succeeded_alen (s : State) : (succeeded s).alen = s.alen := rfl
@[simp] theorem succeeded_dlen (s : State) : (succeeded s).dlen = s.dlen := rfl
@[simp] theorem succeeded_olen (s : State) : (succeeded s).olen = 0 := rfl
@[simp] theorem succeeded_tolen (s : State) : (succeeded s).tolen = 0 := rfl
@[simp] theorem succeeded_done (s : State) : (succeeded s).done = true := rfl
@[simp] theorem succeeded_busy (s : State) : (succeeded s).busy = false := rfl
@[simp] theorem succeeded_kvalid (s : State) : (succeeded s).kvalid = s.kvalid := rfl
@[simp] theorem succeeded_skvalid (s : State) : (succeeded s).skvalid = s.skvalid := rfl
@[simp] theorem succeeded_ccmvalid (s : State) : (succeeded s).ccmvalid = s.ccmvalid := rfl
@[simp] theorem succeeded_ok (s : State) : (succeeded s).ok = true := rfl
@[simp] theorem succeeded_err (s : State) : (succeeded s).err = .none := rfl
@[simp] theorem succeeded_rk (s : State) : (succeeded s).rk = s.rk := rfl
@[simp] theorem succeeded_k1 (s : State) : (succeeded s).k1 = s.k1 := rfl
@[simp] theorem succeeded_k2 (s : State) : (succeeded s).k2 = s.k2 := rfl
@[simp] theorem succeeded_nonce (s : State) : (succeeded s).nonce = s.nonce := rfl
@[simp] theorem succeeded_mlen (s : State) : (succeeded s).mlen = s.mlen := rfl
@[simp] theorem succeeded_regS (s : State) : (succeeded s).regS = zeroBlock := rfl
@[simp] theorem succeeded_regX (s : State) : (succeeded s).regX = zeroBlock := rfl
@[simp] theorem succeeded_regA (s : State) : (succeeded s).regA = zeroBlock := rfl
@[simp] theorem succeeded_regKS (s : State) : (succeeded s).regKS = zeroBlock := rfl
@[simp] theorem succeeded_regS0 (s : State) : (succeeded s).regS0 = zeroBlock := rfl
@[simp] theorem succeeded_regT (s : State) : (succeeded s).regT = zeroWord := rfl
@[simp] theorem succeeded_regLB (s : State) : (succeeded s).regLB = zeroBlock := rfl
@[simp] theorem succeeded_regCTR (s : State) : (succeeded s).regCTR = 0 := rfl
@[simp] theorem succeeded_regRND (s : State) : (succeeded s).regRND = 0 := rfl
@[simp] theorem succeeded_regWI (s : State) : (succeeded s).regWI = 0 := rfl
@[simp] theorem succeeded_regBI (s : State) : (succeeded s).regBI = 0 := rfl
@[simp] theorem succeeded_phase (s : State) : (succeeded s).phase = .idle := rfl
@[simp] theorem succeeded_abuf (s : State) : (succeeded s).abuf = s.abuf := rfl
@[simp] theorem succeeded_din (s : State) : (succeeded s).din = s.din := rfl
@[simp] theorem succeeded_dout (s : State) : (succeeded s).dout = s.dout := rfl
@[simp] theorem succeeded_host (s : State) : (succeeded s).host = s.host := rfl
@[simp] theorem succeeded_got (s : State) : (succeeded s).got = s.got := rfl

end Sys2Proof.Machine
end

