-- ==== Sys2Proof/Laws/Rest.lean ====
section
/-! SUPPORT. What the sequencers leave of the state a command ends with: `atRest` forgets the private working registers, so
each sequencer is described by one short equation under it and by the values it leaves. The end of every command is `atRest`. -/

namespace Sys2Proof.Machine

/-- FINISH and the epilogue are `atRest` (R49, R187). -/
theorem finish_eq_atRest (s : State) : finish s = atRest s := rfl

/-- `raise` after the prologue is `failed` (R48, R212). -/
theorem raise_prologue_eq_failed (e : ErrCode) (s : State) : raise e (prologue s) = failed e s := rfl

theorem atRest_encryptCore (s : State) : atRest (encryptCore s) = atRest s := by rw [encryptCore_eq]; rfl

theorem atRest_absorbLB (s : State) : atRest (absorbLB s) = atRest s := by rw [absorbLB_eq]; rfl

theorem atRest_keystreamBlock (s : State) : atRest (keystreamBlock s) = atRest s := by rw [keystreamBlock_eq]; rfl

theorem atRest_expandKey (key : Block) (s : State) :
    atRest (expandKey key s) = { atRest s with rk := keySchedule key } := by
  obtain ⟨wi, t, e⟩ := expandKey_eq key s
  rw [e]; rfl

theorem expandKey_rk (key : Block) (s : State) : (expandKey key s).rk = keySchedule key := by
  obtain ⟨wi, t, e⟩ := expandKey_eq key s
  rw [e]

theorem atRest_deriveSubkeys (s : State) :
    atRest (deriveSubkeys s) = { atRest s with k1 := subkey1 s.rk, k2 := subkey2 s.rk } := by
  obtain ⟨sr, e⟩ := deriveSubkeys_eq s
  rw [e]; rfl

theorem atRest_runCmac (m : List Byte) (s : State) : atRest (runCmac m s) = atRest s := by
  obtain ⟨sr, lb, bi, rnd, e⟩ := runCmac_eq m s
  rw [e]; rfl

theorem runCmac_regX (m : List Byte) (s : State) : (runCmac m s).regX = cmacTag s.rk s.k1 s.k2 m := by
  obtain ⟨sr, lb, bi, rnd, e⟩ := runCmac_eq m s
  rw [e]

theorem atRest_runCbcMac (aad p : List Byte) (s : State) : atRest (runCbcMac aad p s) = atRest s := by
  obtain ⟨sr, lb, bi, rnd, e⟩ := runCbcMac_eq aad p s
  rw [e]; rfl

theorem runCbcMac_regX (aad p : List Byte) (s : State) :
    (runCbcMac aad p s).regX = cbcMac s.rk s.nonce s.mlen.toNat aad p := by
  obtain ⟨sr, lb, bi, rnd, e⟩ := runCbcMac_eq aad p s
  rw [e]

theorem atRest_runTagMask (s : State) : atRest (runTagMask s) = atRest s := by
  obtain ⟨a, sr, ks, rnd, e⟩ := runTagMask_eq s
  rw [e]; rfl

theorem runTagMask_regS0 (s : State) : (runTagMask s).regS0 = keystream s.rk s.nonce 0 := by
  obtain ⟨a, sr, ks, rnd, e⟩ := runTagMask_eq s
  rw [e]

theorem runTagMask_regX (s : State) : (runTagMask s).regX = s.regX := by
  obtain ⟨a, sr, ks, rnd, e⟩ := runTagMask_eq s
  rw [e]

theorem atRest_runCtr (d : List Byte) (s : State) (h : d.length < 65536) : atRest (runCtr d s).1 = atRest s := by
  obtain ⟨a, sr, ks, ctr, rnd, e⟩ := runCtr_eq d s h
  rw [e]; rfl

theorem runCtr_regX (d : List Byte) (s : State) (h : d.length < 65536) : (runCtr d s).1.regX = s.regX := by
  obtain ⟨a, sr, ks, ctr, rnd, e⟩ := runCtr_eq d s h
  rw [e]

theorem runCtr_regS0 (d : List Byte) (s : State) (h : d.length < 65536) : (runCtr d s).1.regS0 = s.regS0 := by
  obtain ⟨a, sr, ks, ctr, rnd, e⟩ := runCtr_eq d s h
  rw [e]

theorem runCtr_output (d : List Byte) (s : State) (h : d.length < 65536) : (runCtr d s).2 = ctrXor s.rk s.nonce d := by
  obtain ⟨a, sr, ks, ctr, rnd, e⟩ := runCtr_eq d s h
  rw [e]

theorem atRest_formTag (s : State) : atRest (formTag s) = atRest s := rfl

end Sys2Proof.Machine
end

