-- ==== Sys2Proof/Tests/Slice0.lean ====
section
/-! SUPPORT. The model's own tests. The expected values are those of spec/95_test_vectors.md (V1 to V16, P1) and of the tables of spec/, never
the model's own; then one witness per statement with hypotheses. -/

-- One kernel evaluation at a time: the blocks' evaluations are long, and many waiting at once reserve too much memory.
set_option Elab.async false

namespace Sys2Proof.Tests

open Sys2Proof.Machine

/-! ### Helpers -/

/-- Some values of the next state, if there is one. -/
def after {α : Type} (r : Result) (f : State → α) : Option α :=
  match r with
  | .next t => some (f t)
  | .fault _ => none
  | .refused _ => none

/-- The next state, or the reset state. -/
def nextOf (r : Result) : State :=
  match r with
  | .next t => t
  | .fault _ => State.reset
  | .refused _ => State.reset

/-- The step stopped with this fault. -/
def faultOf (r : Result) : Option Fault :=
  match r with
  | .next _ => none
  | .fault e => some e
  | .refused _ => none

/-- The step was refused for this reason. -/
def refusalOf (r : Result) : Option Refusal :=
  match r with
  | .next _ => none
  | .fault _ => none
  | .refused e => some e

/-- The last `n` bytes of a number in hexadecimal, most significant first. -/
def hex (n v : Nat) : List Byte := beBytes n v

/-- The key K and the nonce N of V13 and V15. -/
def keyK : Block := blockOfNat 0x000102030405060708090a0b0c0d0e0f
def nonceN : Nonce := Vector.ofFn fun k => BitVec.ofNat 8 (0x10 + k.val)

/-- The key of RFC 4493 (V5, V8, V9). -/
def keyR : Block := blockOfNat 0x2b7e151628aed2a6abf7158809cf4f3c

/-- After `SETKEY` of a 16-byte key from reset. -/
def withKey (k : Block) : State := { State.reset with keyin := k, klen := 16 }

/-- The round keys of K, printed in V2. -/
def keysK : RoundKeys :=
  #v[blockOfNat 0x000102030405060708090a0b0c0d0e0f,
    blockOfNat 0xd6aa74fdd2af72fadaa678f1d6ab76fe,
    blockOfNat 0xb692cf0b643dbdf1be9bc5006830b3fe,
    blockOfNat 0xb6ff744ed2c2c9bf6c590cbf0469bf41,
    blockOfNat 0x47f7f7bc95353e03f96c32bcfd058dfd,
    blockOfNat 0x3caaa3e8a99f9deb50f3af57adf622aa,
    blockOfNat 0x5e390f7df7a69296a7553dc10aa31f6b,
    blockOfNat 0x14f9701ae35fe28c440adf4d4ea9c026,
    blockOfNat 0x47438735a41c65b9e016baf4aebf7ad2,
    blockOfNat 0x549932d1f08557681093ed9cbe2c974e,
    blockOfNat 0x13111d7fe3944a17f307a78b4d2b30c5]

/-- K expanded, as after KEYEXP (V2). -/
def keyed : State := { withKey keyK with rk := keysK, kvalid := true }

/-- K with the CMAC subkeys of V8. -/
def maced : State :=
  { keyed with
    skvalid := true
    k1 := blockOfNat 0x8d42766f0f1eb704de9f02c54391b075, k2 := blockOfNat 0x1a84ecde1e3d6e09bd3e058a8723606d }

/-- K, N and a tag length of `m` bytes bound for CCM. -/
def bound (m : BitVec 5) : State := { keyed with ccmvalid := true, nonce := nonceN, mlen := m }

/-- DIN and DLEN hold a byte string. -/
def withData (d : List Byte) (s : State) : State :=
  { s with din := memWriteBytes [] 0 d, dlen := BitVec.ofNat 64 d.length }

/-! ### Decoding: every code of R81 and every label of R94, written out in bits -/

theorem test_decode_keyexp : decodeTableWord 8 0b00000001 = some .keyexp := by decide
theorem test_decode_encblk : decodeTableWord 8 0b00000010 = some .encblk := by decide
theorem test_decode_cmacinit : decodeTableWord 8 0b00000011 = some .cmacinit := by decide
theorem test_decode_cmacgen : decodeTableWord 8 0b00000100 = some .cmacgen := by decide
theorem test_decode_cmacvfy : decodeTableWord 8 0b00000101 = some .cmacvfy := by decide
theorem test_decode_ccminit : decodeTableWord 8 0b00000110 = some .ccminit := by decide
theorem test_decode_ccmenc : decodeTableWord 8 0b00000111 = some .ccmenc := by decide
theorem test_decode_ccmdec : decodeTableWord 8 0b00001000 = some .ccmdec := by decide
theorem test_decode_clear : decodeTableWord 8 0b00001001 = some .clear := by decide
theorem test_decode_subbytes : decodeTableWord 4 0b0001 = some .subbytes := by decide
theorem test_decode_shiftrows : decodeTableWord 4 0b0010 = some .shiftrows := by decide
theorem test_decode_mixcolumns : decodeTableWord 4 0b0011 = some .mixcolumns := by decide
theorem test_decode_addroundkey : decodeTableWord 4 0b0100 = some .addroundkey := by decide
theorem test_decode_ksword : decodeTableWord 4 0b0101 = some .ksword := by decide
theorem test_decode_enccore : decodeTableWord 4 0b0110 = some .enccore := by decide
theorem test_decode_dbl : decodeTableWord 4 0b0111 = some .dbl := by decide
theorem test_decode_absorb : decodeTableWord 4 0b1000 = some .absorb := by decide
theorem test_decode_ctrblk : decodeTableWord 4 0b1001 = some .ctrblk := by decide
theorem test_decode_tagcmp : decodeTableWord 4 0b1010 = some .tagcmp := by decide

/-- The codes 0x00, 0x0A and 0xFF are reserved (R82), the labels 0x0, 0xB and 0xF unused (R94). -/
theorem test_decode_rejects :
    decodeCommand 0x00 = .error (.unknownCommand 0x00) ∧ decodeCommand 0x0A = .error (.unknownCommand 0x0A)
      ∧ decodeCommand 0xFF = .error (.unknownCommand 0xFF) ∧ decodeLabel 0x0 = .error (.unusedLabel 0x0)
      ∧ decodeLabel 0xB = .error (.unusedLabel 0xB) ∧ decodeLabel 0xF = .error (.unusedLabel 0xF) := by decide

/-! ### WellFormed: the one check refuses what no host can issue -/

/-- An internal operation is no host command, and no program line carries it (R94). -/
theorem test_internal_operation_is_no_command :
    Instr.subbytes.hostVisible = false ∧ lineAccess (.cmd .subbytes) = none ∧ accessOfTableWord 4 0x1 = [] := by decide

theorem test_clear_is_a_command : Instr.clear.hostVisible = true ∧ Instr.clear.width = 8 := by decide

/-- A value one bit too wide for KLEN, and for CMD, is no host move (R37). -/
theorem test_too_wide_value_refused :
    refusalOf (hostWrite .klen 0x100000000 State.reset) = some .hostValueTooWide
      ∧ refusalOf (hostWrite .cmd 0x101 State.reset) = some .hostValueTooWide
      ∧ fitsRegister .klen 0xFFFFFFFF = true := by decide

/-! ### Key expansion (V2, V5, V15) -/

theorem test_keyexp_last_round_key :
    after (exec .keyexp (withKey keyK)) (fun t => (t.rk[10], statusWord t))
      = some (blockOfNat 0x13111d7fe3944a17f307a78b4d2b30c5, 0x0025) := by decide +kernel

/-- V15 row 10. -/
theorem test_keyexp_wrong_length :
    after (exec .keyexp { withKey keyK with klen := 17 }) (fun t => (t.rk[10], statusWord t))
      = some (zeroBlock, 0x0101) := by decide +kernel

/-- V2, the first KSWORD step in full: `W[4] = d6aa74fd`, T before the XOR with `W[0]` is `d6ab76fe`. -/
theorem test_ksword_first :
    after (exec .ksword { State.reset with rk := zeroKeys.set 0 keyK, regWI := 4 })
        (fun t => ((keyWord t.rk 4).toList, t.regT.toList))
      = some (hex 4 0xd6aa74fd, hex 4 0xd6ab76fe) := by decide +kernel

/-- V2, the last transformed step: `W[40] = 13111d7f`. -/
theorem test_ksword_last :
    after (exec .ksword
        { State.reset with rk := zeroKeys.set 9 (blockOfNat 0x549932d1f08557681093ed9cbe2c974e), regWI := 40 })
        (fun t => ((keyWord t.rk 40).toList, t.regT.toList))
      = some (hex 4 0x13111d7f, hex 4 0x47882fae) := by decide +kernel

/-! ### Block cipher (V1, V3, V4, V6) -/

theorem test_subbytes :
    after (exec .subbytes { State.reset with regS := blockOfNat 0xf0f1f2f3f4f5f6f7f8f9fafbfcfdfeff }) State.regS
      = some (blockOfNat 0x8ca1890dbfe6426841992d0fb054bb16) := by decide +kernel

theorem test_shiftrows :
    after (exec .shiftrows { State.reset with regS := keyK }) State.regS
      = some (blockOfNat 0x00050a0f04090e03080d02070c01060b) := by decide +kernel

theorem test_mixcolumns :
    after (exec .mixcolumns { State.reset with regS := blockOfNat 0xdb135345f20a225cd4d4d4d580000000 }) State.regS
      = some (blockOfNat 0x8e4da1bc9fdc589dd5d5d7d61b80809b) := by decide +kernel

theorem test_addroundkey :
    after (exec .addroundkey
        { State.reset with
          rk := zeroKeys.set 1 (blockOfNat 0xd6aa74fdd2af72fadaa678f1d6ab76fe), regRND := 1
          regS := blockOfNat 0x5f72641557f5bc92f7be3b291db9f91a }) State.regS
      = some (blockOfNat 0x89d810e8855ace682d1843d8cb128fe4) := by decide +kernel

/-- V1, the source's own vector. -/
theorem test_enccore :
    after (exec .enccore { keyed with regS := blockOfNat 0x00112233445566778899aabbccddeeff }) State.regS
      = some (blockOfNat 0x69c4e0d86a7b0430d8cdb78070b4c55a) := by decide +kernel

/-- V1 as P1 runs it. -/
theorem test_encblk :
    after (exec .encblk (withData (hex 16 0x00112233445566778899aabbccddeeff) keyed))
        (fun t => (memReadBytes t.dout 0 16, t.olen, statusWord t))
      = some (hex 16 0x69c4e0d86a7b0430d8cdb78070b4c55a, 16, 0x0025) := by decide +kernel

/-- V15 row 14. -/
theorem test_encblk_wrong_length :
    after (exec .encblk { keyed with dlen := 15 }) (fun t => (t.dout, statusWord t)) = some ([], 0x0205) := by decide +kernel

/-! ### CMAC (V7 to V10, V15) -/

/-- V7: a shift, not a rotation (90_conflicts.md C1). -/
theorem test_dbl :
    after (exec .dbl { State.reset with regS := blockOfNat 0xfbeed618357133667c85e08f7236a8de }) State.regS
      = some (blockOfNat 0xf7ddac306ae266ccf90bc11ee46d513b) := by decide +kernel

/-- V8. -/
theorem test_cmacinit :
    after (exec .cmacinit (withKey keyR)) (fun t => (t.k1, t.k2, statusWord t))
      = some (blockOfNat 0xfbeed618357133667c85e08f7236a8de, blockOfNat 0xf7ddac306ae266ccf90bc11ee46d513b, 0x002d) := by
  decide +kernel

/-- V13 (c), block 1. -/
theorem test_absorb :
    after (exec .absorb
        { keyed with
          regX := blockOfNat 0x0b3fe4ab7a15f568bb83ad6c765d5d9a
          regLB := blockOfNat 0x0004a0a1a2a300000000000000000000 }) State.regX
      = some (blockOfNat 0x64cb0e5b1fbe29a329cb3a9df4d01f53) := by decide +kernel

/-- V15 row 20: the empty message. -/
theorem test_cmacgen_empty :
    after (exec .cmacgen maced) (fun t => (t.tagout, t.tolen, statusWord t))
      = some (blockOfNat 0x97dd6e5a882cbd564c39ae7d1c5a31aa, 16, 0x002d) := by
  have h : ¬Config.dbufCap < (prologue maced).dlen.toNat := Nat.not_lt_zero _
  rw [exec, execCmacgen]
  simp only [if_neg h]
  decide +kernel

/-- V10, 17 bytes: a complete block and a padded one. -/
theorem test_cmac_seventeen_bytes :
    (runCmac (hex 17 0x000102030405060708090a0b0c0d0e0f10) maced).regX
      = blockOfNat 0xdbab59423fbec5a7be32c48ce1a80e33 := by decide +kernel

/-- V15 row 22. -/
theorem test_cmacvfy_true :
    after (exec .cmacvfy { maced with tagin := blockOfNat 0x97dd6e5a882cbd564c39ae7d1c5a31aa, tlen := 16 }) statusWord
      = some 0x002d := by
  have h : ¬Config.dbufCap < (prologue { maced with tagin := blockOfNat 0x97dd6e5a882cbd564c39ae7d1c5a31aa, tlen := 16 }).dlen.toNat := Nat.not_lt_zero _
  rw [exec, execCmacvfy]
  simp only [if_neg h]
  decide +kernel

/-- V15 row 21: with TLEN 0 the verdict is false and there is no error. -/
theorem test_cmacvfy_false :
    after (exec .cmacvfy { maced with tagin := blockOfNat 0x97dd6e5a882cbd564c39ae7d1c5a31aa, tlen := 0 }) statusWord
      = some 0x000d := by
  have h : ¬Config.dbufCap < (prologue { maced with tagin := blockOfNat 0x97dd6e5a882cbd564c39ae7d1c5a31aa, tlen := 0 }).dlen.toNat := Nat.not_lt_zero _
  rw [exec, execCmacvfy]
  simp only [if_neg h]
  decide +kernel

/-- V10: one flipped bit in the last byte, and the right bytes. -/
theorem test_tagcmp :
    after (exec .tagcmp
        { State.reset with
          regLB := blockOfNat 0x779e2a04a8af903241317f1c508e9ae4, tlen := 16
          tagin := blockOfNat 0x779e2a04a8af903241317f1c508e9ae5 }) State.ok = some false
      ∧ after (exec .tagcmp
        { State.reset with
          regLB := blockOfNat 0x779e2a04a8af903241317f1c508e9ae4, tlen := 16
          tagin := blockOfNat 0x779e2a04a8af903241317f1c508e9ae4 }) State.ok = some true := by decide +kernel

/-! ### CCM (V11 to V13, V15) -/

/-- V11: the header forms change at 0xFF00 and at 2^32. -/
theorem test_aad_header :
    aadHeader 65279 = hex 2 0xfeff ∧ aadHeader 65280 = hex 6 0xfffe0000ff00
      ∧ aadHeader 4294967295 = hex 6 0xfffeffffffff ∧ aadHeader 4294967296 = hex 10 0xffff0000000100000000 := by
  decide +kernel

/-- V11: B0, a counter block, a spilled associated-data stream and pad80. -/
theorem test_formats :
    b0Block nonceN 10 8 20 = blockOfNat 0x61101112131415161718191a1b1c0014
      ∧ counterBlock nonceN 4096 = blockOfNat 0x01101112131415161718191a1b1c1000
      ∧ fmtA (hex 15 0x404142434445464748494a4b4c4d4e)
        = hex 32 0x000f404142434445464748494a4b4c4d4e000000000000000000000000000000
      ∧ pad80 (hex 4 0x8e4b3f7c) = blockOfNat 0x8e4b3f7c800000000000000000000000 := by decide +kernel

/-- V15 row 33. -/
theorem test_ccminit :
    after (exec .ccminit { withKey keyK with noncein := nonceN, nlen := 13, maclen := 8 })
        (fun t => (t.nonce, t.mlen, statusWord t))
      = some (nonceN, 8, 0x0035) := by decide +kernel

/-- V15 rows 27 and 30: an odd tag length, then a wrong nonce length before a wrong key length. -/
theorem test_ccminit_check_order :
    after (exec .ccminit { State.reset with maclen := 7 }) statusWord = some 0x0401
      ∧ after (exec .ccminit { State.reset with maclen := 8 }) statusWord = some 0x0301 := by decide +kernel

/-- V12 and V13: the keystream block `S_1`. -/
theorem test_ctrblk :
    after (exec .ctrblk { bound 8 with regCTR := 1 }) (fun t => (t.regA, t.regKS))
      = some (blockOfNat 0x01101112131415161718191a1b1c0001, blockOfNat 0x7ce17041b85ceed4bb5948912f076c81) := by
  decide +kernel

/-- V13 (c): the CBC-MAC over B0 and one associated-data block. -/
theorem test_cbcmac :
    (runCbcMac (hex 4 0xa0a1a2a3) [] (bound 8)).regX = blockOfNat 0x64cb0e5b1fbe29a329cb3a9df4d01f53 := by
  decide +kernel

/-- V13 (d). -/
theorem test_ccmenc :
    after (exec .ccmenc (withData (hex 4 0x20212223) (bound 8)))
        (fun t => (memReadBytes t.dout 0 4, firstBytes t.tagout 8, t.olen, t.tolen, statusWord t))
      = some (hex 4 0x5cc05262, hex 8 0xca63fe13940bf6c9, 4, 8, 0x0035) := by decide +kernel

/-- V15 row 35: the longest DLEN is too long, and nothing is read or written. -/
theorem test_ccmenc_too_long :
    after (exec .ccmenc { bound 8 with dlen := 0xffffffffffffffff }) (fun t => (t.dout, t.tagout, statusWord t))
      = some ([], zeroBlock, 0x0515) := by decide +kernel

/-- V13 (d) through CCMDEC. -/
theorem test_ccmdec :
    after (exec .ccmdec
        { withData (hex 4 0x5cc05262) (bound 8) with tagin := blockOf (hex 8 0xca63fe13940bf6c9), tlen := 8 })
        (fun t => (memReadBytes t.dout 0 4, t.olen, statusWord t))
      = some (hex 4 0x20212223, 4, 0x0035) := by decide +kernel

/-- One flipped bit of the tag: error 6, OLEN 0, zeros over the recovered bytes and no others (V13, R186). -/
theorem test_ccmdec_tampered :
    after (exec .ccmdec
        { withData (hex 4 0x5cc05262) (bound 8) with
          tagin := blockOf (hex 8 0x4a63fe13940bf6c9), tlen := 8, dout := memWriteBytes [] 0 (hex 6 0xaabbccddeeff) })
        (fun t => (memReadBytes t.dout 0 6, t.olen, statusWord t))
      = some (hex 6 0x00000000eeff, 0, 0x0615) := by decide +kernel

/-! ### Work counts (R234) -/

/-- P3 and R234: 7 calls of E in CCMENC for 20 bytes with 8 bytes of associated data, 40 calls of KSWORD in KEYEXP, none in a failed
command or for a reserved code. -/
theorem test_work_counts :
    encryptLoopCalls .ccmenc { bound 10 with dlen := 20, alen := 8 } = 7 ∧ scheduleCalls .keyexp (withKey keyK) = 40
      ∧ encryptCalls .encblk State.reset = 0 ∧ scheduleCalls .keyexp State.reset = 0
      ∧ callsOfWrite 0x0A keyed = (0, 0) := by decide +kernel

/-! ### System and host access (V15, V16, P1) -/

/-- V15 row 46. -/
theorem test_clear :
    after (exec .clear (bound 8)) (fun t => (statusWord t, t.rk == zeroKeys, t.nonce, t.klen))
      = some (0x0000, true, zeroNonce, 0) := by decide +kernel

/-- V15 rows 6 and 7, by a host write to CMD. -/
theorem test_unknown_command :
    after (step { State.reset with host := [.writeReg 0 0x0a] }) statusWord = some 0x0801
      ∧ after (step { State.reset with host := [.writeReg 0 0xff] }) statusWord = some 0x0801 := by decide +kernel

/-- V16: KEYIN reads 0, KLEN reads back, a write to register 100 changes nothing and it reads 0. -/
theorem test_register_reads :
    readRegister (regOf 31) (withKey keyK) = 0 ∧ readRegister (regOf 2) (withKey keyK) = 16
      ∧ nextOf (step { withKey keyK with host := [.writeReg 100 5] }) = withKey keyK
      ∧ readRegister (regOf 100) (withKey keyK) = 0 := by decide +kernel

/-- V16: `WB NONCEIN[12], 0x1c` then `RB NONCEIN[12]`. -/
theorem test_noncein_reads_back :
    after (hostWrite (regOf 44) 0x1c State.reset) (readRegister (regOf 44)) = some 0x1c := by decide +kernel

/-- V16: `PUT DIN[7], 0x5a` then `GET DIN[7]`, and `GET DOUT[7]` is unaffected. -/
theorem test_put_reads_back :
    memRead (putByte .din 7 0x5a State.reset).din 7 = 0x5a ∧ memRead (putByte .din 7 0x5a State.reset).dout 7 = 0 := by
  decide +kernel

/-- P1: what `SETKEY` and the command lines expand to. -/
theorem test_program_lines :
    ((expandLine (.setKey (hex 16 0x000102030405060708090a0b0c0d0e0f)) State.reset).map lineAccess).take 2
        = [some (.writeReg 16 0x00), some (.writeReg 17 0x01)]
      ∧ ((expandLine (.setKey (hex 16 0x000102030405060708090a0b0c0d0e0f)) State.reset).map lineAccess).getLast?
        = some (some (.writeReg 2 16))
      ∧ lineAccess (.cmd .keyexp) = some (.writeReg 0 0x01) ∧ lineAccess (.rd .status) = some (.readReg 1) := by
  decide +kernel

/-- R93: GETDATA and GETTAG read as many bytes as OLEN and TOLEN say, and WAIT goes on after reset and ends after a command. -/
theorem test_reading_lines :
    (expandLine .getData { State.reset with olen := 2 }).map lineAccess
        = [some (.readReg 8), some (.get .dout 0), some (.get .dout 1)]
      ∧ (expandLine .getTag { State.reset with tolen := 2 }).map lineAccess
        = [some (.readReg 9), some (.readReg 64), some (.readReg 65)]
      ∧ expandLine .wait State.reset = [.rd .status, .wait]
      ∧ expandLine .wait { State.reset with done := true } = [.rd .status] := by decide +kernel

/-- R93 and V15 row 9: `BlockCipher::new` of a 15-byte key, with STATUS read after its CMD, answers InvalidKeySize. -/
theorem test_entry_point_error :
    after (runHost 20 (readingStatus (blockCipherNew (hex 15 0))) State.reset) (fun t => (t.got, t.got.map errorVariant))
      = some ([0x0101], [some .invalidKeySize]) := by decide +kernel

/-- The first step after reset with KEYEXP placed runs KEYEXP: KLEN is 0, so STATUS reads 0x0101 (V15 row 8). -/
theorem test_withFetchWord :
    after (step (State.reset.withFetchWord 8 0x01)) (fun t => (statusWord t, t.host)) = some (0x0101, []) := by
  decide +kernel

/-! ### Witnesses: states and operands that meet all the premises of a statement, clause by clause -/

/-- What `exec` gives is a next state, for the three commands whose checks name an open capacity. -/
theorem cmacgen_runs (s : State) (h : s.skvalid = true) (hd : s.dlen = 0) : ∃ t, exec .cmacgen s = .next t := by
  have hc : ¬Config.dbufCap < (prologue s).dlen.toNat := by
    rw [show (prologue s).dlen = 0 from hd]; exact Nat.not_lt_zero _
  rw [exec, execCmacgen]
  simp only [if_neg hc, if_neg (show ¬(prologue s).skvalid = false by rw [show (prologue s).skvalid = true from h]; decide)]
  exact ⟨_, rfl⟩

theorem ccmenc_runs (s : State) (h : s.ccmvalid = true) (hd : s.dlen.toNat < 65536) (ha : s.alen = 0) :
    ∃ t, exec .ccmenc s = .next t := by
  have hc : ¬Config.abufCap < (prologue s).alen.toNat := by
    rw [show (prologue s).alen = 0 from ha]; exact Nat.not_lt_zero _
  rw [exec, execCcmenc]
  simp only [if_neg hc, if_neg (show ¬Config.messageLimit ≤ (prologue s).dlen.toNat from Nat.not_le.2 hd),
    if_neg (show ¬(prologue s).ccmvalid = false by rw [show (prologue s).ccmvalid = true from h]; decide)]
  exact ⟨_, rfl⟩

theorem witness_ReservedCodesEndInUnknownCommand :
    (∃ c : Byte, c = 0x00) ∧ (∃ c : Byte, c = 0x0A ∧ 0x0A ≤ c.toNat) ∧ ∃ c : Byte, c = 0xFF ∧ 0x0A ≤ c.toNat :=
  ⟨⟨_, rfl⟩, ⟨_, rfl, by decide⟩, ⟨_, rfl, by decide⟩⟩

theorem witness_StepRunsTheIssuedCommand :
    (∃ (s : State) (c : Byte) (i : Instr) (rest : List Access),
      s.host = .writeReg 0 (c.setWidth 64) :: rest ∧ decodeCommand c = .ok i)
    ∧ (∃ (s : State) (c : Byte) (e : Reject) (rest : List Access),
      s.host = .writeReg 0 (c.setWidth 64) :: rest ∧ decodeCommand c = .error e)
    ∧ ∃ (c : Byte) (i : Instr), decodeTableWord 8 c.toNat = some i :=
  ⟨⟨{ State.reset with host := [.writeReg 0 0x09, .readReg 1] }, 0x09, .clear, [.readReg 1], rfl, rfl⟩,
    ⟨{ State.reset with host := [.writeReg 0 0x0A] }, 0x0A, .unknownCommand 0x0A, [], rfl, rfl⟩, 0x09, .clear, rfl⟩

theorem witness_NothingHappensWithoutTheHost : State.reset.host = [] := rfl

theorem witness_ResetAccessLeavesTheResetState :
    ∃ (s : State) (rest : List Access), s.host = .reset :: rest ∧ s.kvalid = true :=
  ⟨{ keyed with host := [.reset] }, [], rfl, rfl⟩

/-- A host read of STATUS is pending. -/
theorem witness_StatusBitsAreTheFlags : { keyed with host := [.readReg 1] }.host = .readReg 1 :: [] := rfl

theorem witness_RegisterNumbersFollowTheMap :
    Reg.cmd ≠ .reserved ∧ Reg.tagout 15 ≠ .reserved ∧ regOf 10 = .reserved ∧ regOf 15 = .reserved ∧ regOf 45 = .reserved
      ∧ regOf 47 = .reserved ∧ regOf 80 = .reserved ∧ regOf 79 = .tagout 15
      ∧ regWidth (regOf 5) = 32 ∧ regWidth (regOf 8) = 64 ∧ regWidth (regOf 9) = 8 ∧ hostWritable (regOf 7) = true
      ∧ hostWritable (regOf 63) = true ∧ hostWritable (regOf 64) = false := by decide

/-- A state whose host writes 0xFF to register `n`. -/
def writing (n : Nat) : State := { keyed with host := [.writeReg n 0xFF] }

theorem witness_ReadOnlyRegistersIgnoreWrites :
    ∀ n ∈ [1, 8, 9, 10, 15, 45, 47, 64, 79, 80], ∃ (s : State) (v : BitVec 64) (rest : List Access),
      s.host = .writeReg n v :: rest
        ∧ (n = 1 ∨ n = 8 ∨ n = 9 ∨ (10 ≤ n ∧ n ≤ 15) ∨ (45 ≤ n ∧ n ≤ 47) ∨ 64 ≤ n) := by
  intro n hn
  refine ⟨writing n, 0xFF, [], rfl, ?_⟩
  simp only [List.mem_cons, List.not_mem_nil, or_false] at hn
  omega

theorem witness_WriteOnlyRegistersReadZero :
    ∀ n ∈ [0, 10, 15, 16, 31, 45, 47, 80], ∃ (s : State) (rest : List Access),
      s.host = .readReg n :: rest ∧ (n = 0 ∨ (10 ≤ n ∧ n ≤ 31) ∨ (45 ≤ n ∧ n ≤ 47) ∨ 80 ≤ n) := by
  intro n hn
  refine ⟨{ keyed with host := [.readReg n] }, [], rfl, ?_⟩
  simp only [List.mem_cons, List.not_mem_nil, or_false] at hn
  omega

theorem witness_WrittenRegistersReadBack :
    (∀ n ∈ [2, 5, 16, 31, 32, 44, 48, 63], ∃ (s : State) (v : BitVec 64) (rest : List Access), s.host = .writeReg n v :: rest
      ∧ ((2 ≤ n ∧ n ≤ 5) ∧ v.toNat < 2 ^ 32 ∨ ((16 ≤ n ∧ n ≤ 44) ∨ (48 ≤ n ∧ n ≤ 63)) ∧ v.toNat < 2 ^ 8) ∧ v = 0xFF)
    ∧ (∃ (s : State) (v : BitVec 64) (rest : List Access), s.host = .writeReg 2 v :: rest ∧ v.toNat = 2 ^ 32 - 1)
    ∧ ∀ n ∈ [6, 7], ∃ (s : State) (v : BitVec 64) (rest : List Access), s.host = .writeReg n v :: rest ∧ v.toNat = 2 ^ 64 - 1 := by
  refine ⟨fun n hn => ⟨writing n, 0xFF, [], rfl, ?_, rfl⟩,
    ⟨{ keyed with host := [.writeReg 2 0xFFFFFFFF] }, 0xFFFFFFFF, [], rfl, rfl⟩,
    fun n _ => ⟨{ keyed with host := [.writeReg n 0xFFFFFFFFFFFFFFFF] }, 0xFFFFFFFFFFFFFFFF, [], rfl, rfl⟩⟩
  simp only [List.mem_cons, List.not_mem_nil, or_false] at hn
  rw [show (0xFF : BitVec 64).toNat = 255 from rfl]
  omega

theorem witness_PutBytesReadBack :
    (∃ (s : State) (b : Buffer) (a : Nat) (v : Byte) (rest : List Access),
      s.host = .put b a v :: rest ∧ a < capacity b ∧ Memory.wf (bufferOf b s) ∧ b = .din ∧ a = 65534)
    ∧ (∃ (s : State) (b : Buffer) (a : Nat) (v : Byte) (rest : List Access),
      s.host = .put b a v :: rest ∧ a < capacity b ∧ Memory.wf (bufferOf b s) ∧ b = .dout ∧ a = 65534)
    ∧ (0 < Config.abufCap → ∃ (s : State) (b : Buffer) (a : Nat) (v : Byte) (rest : List Access),
      s.host = .put b a v :: rest ∧ a < capacity b ∧ Memory.wf (bufferOf b s) ∧ b = .abuf) :=
  ⟨⟨{ State.reset with host := [.put .din 65534 0x5a] }, .din, 65534, 0x5a, [], rfl, dbufCap_ge, Memory.wf_nil, rfl, rfl⟩,
    ⟨{ State.reset with host := [.put .dout 65534 0x5a] }, .dout, 65534, 0x5a, [], rfl, dbufCap_ge, Memory.wf_nil, rfl, rfl⟩,
    fun h => ⟨{ State.reset with host := [.put .abuf 0 0x5a] }, .abuf, 0, 0x5a, [], rfl, h, Memory.wf_nil, rfl⟩⟩

theorem witness_HostMovesOutsideTheSpecStop :
    (∃ (s : State) (b : Buffer) (a : Nat) (v : Byte), capacity b ≤ a ∧ s.host = [.put b a v])
    ∧ (∃ (s : State) (b : Buffer) (a : Nat), capacity b ≤ a ∧ s.host = [.get b a])
    ∧ ∀ n ∈ [0, 16, 44, 48, 63], ∃ (s : State) (v : BitVec 64), s.host = [.writeReg n v]
      ∧ (n = 0 ∨ (16 ≤ n ∧ n ≤ 44) ∨ (48 ≤ n ∧ n ≤ 63)) ∧ 2 ^ 8 ≤ v.toNat := by
  refine ⟨⟨{ State.reset with host := [.put .abuf (capacity .abuf) 0] }, .abuf, capacity .abuf, 0, le_refl _, rfl⟩,
    ⟨{ State.reset with host := [.get .dout (capacity .dout)] }, .dout, capacity .dout, le_refl _, rfl⟩, fun n hn => ?_⟩
  refine ⟨{ State.reset with host := [.writeReg n 0x100] }, 0x100, rfl, ?_, by decide⟩
  simp only [List.mem_cons, List.not_mem_nil, or_false] at hn
  omega

theorem witness_HostReadsHaveNoSideEffect :
    (∃ (s : State) (n : Nat), s.host = [.readReg n])
      ∧ ∃ (s : State) (b : Buffer) (a : Nat), s.host = [.get b a] ∧ a < capacity b :=
  ⟨⟨{ State.reset with host := [.readReg 1] }, 1, rfl⟩,
    { State.reset with host := [.get .din 65534] }, .din, 65534, rfl, dbufCap_ge⟩

theorem witness_KeyMaterialIsUnreadable :
    (∃ (s t : State) (n : Nat), hostAccess (.readReg n) s = .next t ∧ n = 16)
      ∧ ∃ (s t : State) (b : Buffer) (a : Nat), hostAccess (.get b a) s = .next t :=
  ⟨⟨keyed, _, 16, rfl, rfl⟩, keyed, _, .din, 0,
    if_pos (show 0 < capacity .din from Nat.lt_of_lt_of_le (by decide) dbufCap_ge)⟩

theorem witness_KeyexpBuildsTheSchedule : (withKey keyK).klen = 16 ∧ { withKey keyK with klen := 17 }.klen ≠ 16 := by decide

theorem witness_ScheduleWordsFollowTheRecurrence :
    ∃ s t : State, s.klen = 16 ∧ exec .keyexp s = .next t := ⟨withKey keyK, _, rfl, rfl⟩

theorem witness_KswordComputesOneWord :
    (∃ s : State, 4 ≤ s.regWI.toNat ∧ s.regWI.toNat ≤ 43 ∧ s.regWI = 4)
      ∧ ∃ s : State, 4 ≤ s.regWI.toNat ∧ s.regWI.toNat ≤ 43 ∧ s.regWI = 43 :=
  ⟨⟨{ State.reset with regWI := 4 }, by decide⟩, { State.reset with regWI := 43 }, by decide⟩

theorem witness_UndefinedIndicesStop :
    State.reset.regWI.toNat < 4 ∧ 43 < { State.reset with regWI := 44 }.regWI.toNat
      ∧ 10 < { State.reset with regRND := 11 }.regRND.toNat
      ∧ faultOf (exec .ksword { State.reset with regWI := 44 }) = some .wordIndexOutOfRange
      ∧ faultOf (exec .addroundkey { State.reset with regRND := 11 }) = some .roundOutOfRange := by decide

theorem witness_AddRoundKeyActsOnS :
    (∃ s : State, s.regRND.toNat = 0) ∧ ∃ s : State, s.regRND.toNat = 10 :=
  ⟨⟨State.reset, rfl⟩, { State.reset with regRND := 10 }, rfl⟩

theorem witness_SboxIsTheAffineInverse : (0x53 : Byte) ≠ 0 ∧ gmul 0x53 0xCA = 1 ∧ sbox 0x53 = sboxAffine 0xCA := by
  decide +kernel

theorem witness_EncblkEncryptsOneBlock :
    (∃ s : State, s.kvalid = true ∧ s.dlen = 16) ∧ (∃ s : State, s.kvalid = false)
      ∧ ∃ s : State, s.kvalid = true ∧ s.dlen ≠ 16 :=
  ⟨⟨{ keyed with dlen := 16 }, rfl, rfl⟩, ⟨State.reset, rfl⟩, { keyed with dlen := 15 }, rfl, by decide⟩

theorem witness_CmacinitDerivesTheSubkeys : (withKey keyR).klen = 16 ∧ { withKey keyR with klen := 32 }.klen ≠ 16 := by
  decide

/-- The third clause needs a DLEN above DBUF_CAP, which exists for every capacity but the largest R64 allows. -/
theorem witness_CmacgenTagsTheMessage :
    (∃ s : State, s.skvalid = true ∧ s.dlen.toNat ≤ Config.dbufCap ∧ s.dlen = 65535) ∧ (∃ s : State, s.skvalid = false)
      ∧ (Config.dbufCap < 2 ^ 64 - 1 → ∃ s : State, s.skvalid = true ∧ Config.dbufCap < s.dlen.toNat) :=
  ⟨⟨{ maced with dlen := 65535 }, rfl, dbufCap_ge, rfl⟩, ⟨State.reset, rfl⟩,
    fun h => ⟨{ maced with dlen := 0xFFFFFFFFFFFFFFFF }, rfl, h⟩⟩

/-- The same premises as CMACGEN's; the verdict is true for a state of V15 row 22 and false for row 21. -/
theorem witness_CmacvfyGivesTheVerdict :
    ∃ s : State, s.skvalid = true ∧ s.dlen.toNat ≤ Config.dbufCap ∧ s.tlen = 16 :=
  ⟨{ maced with tlen := 16 }, rfl, Nat.zero_le _, rfl⟩

theorem witness_ComparatorIsEquality : (firstBytes zeroBlock 10).length ≤ zeroBlock.toList.length := by decide

theorem witness_TagcmpSetsOkAlone :
    expectedTagLength State.reset ≤ 16 ∧ expectedTagLength (bound 4) ≤ 16 ∧ expectedTagLength (bound 4) = 4 := by decide

theorem witness_GeneratedTagsVerify :
    ∃ s t : State, s.skvalid = true ∧ s.dlen.toNat ≤ Config.dbufCap ∧ exec .cmacgen s = .next t :=
  have ⟨t, h⟩ := cmacgen_runs maced rfl rfl
  ⟨maced, t, rfl, Nat.zero_le _, h⟩

/-- A state ready for CCMINIT. -/
def ready : State := { withKey keyK with noncein := nonceN, nlen := 13, maclen := 4 }

theorem witness_CcminitLatchesTheBinding :
    (ready.maclen.toNat ∈ [4, 6, 8, 10, 12, 14, 16] ∧ ready.nlen = 13 ∧ ready.klen = 16)
      ∧ (¬(3 : BitVec 32).toNat ∈ [4, 6, 8, 10, 12, 14, 16] ∧ ¬(5 : BitVec 32).toNat ∈ [4, 6, 8, 10, 12, 14, 16]
        ∧ ¬(18 : BitVec 32).toNat ∈ [4, 6, 8, 10, 12, 14, 16])
      ∧ { ready with nlen := 12 }.nlen ≠ 13 ∧ { ready with klen := 15 }.klen ≠ 16 := by decide

/-- The last clause needs an ALEN above ABUF_CAP, which exists for every capacity but the largest R64 allows. -/
theorem witness_CcmencEncryptsAndTags :
    (∃ s : State, s.ccmvalid = true ∧ s.dlen.toNat < 65536 ∧ s.alen.toNat ≤ Config.abufCap ∧ s.dlen = 65535)
      ∧ (∃ s : State, s.ccmvalid = false) ∧ (∃ s : State, s.ccmvalid = true ∧ 65536 ≤ s.dlen.toNat ∧ s.dlen = 65536)
      ∧ (Config.abufCap < 2 ^ 64 - 1 →
        ∃ s : State, s.ccmvalid = true ∧ s.dlen.toNat < 65536 ∧ Config.abufCap < s.alen.toNat) :=
  ⟨⟨{ bound 4 with dlen := 65535 }, rfl, by decide, Nat.zero_le _, rfl⟩, ⟨State.reset, rfl⟩,
    ⟨{ bound 4 with dlen := 65536 }, rfl, by decide, rfl⟩,
    fun h => ⟨{ bound 4 with alen := 0xFFFFFFFFFFFFFFFF }, rfl, by decide, h⟩⟩

/-- CCMDEC's operands with the tag the rules give, put into TAGIN. -/
def received : State := { withData [0x5c, 0xc0, 0x52, 0x62] (bound 8) with tlen := 8 }
def authentic : State := { received with tagin := tagFor received (transformed received) }

/-- TAGIN takes no part in the tag of the recovered plaintext. -/
theorem tag_ignores_tagin (s : State) (x : Block) :
    tagFor { s with tagin := x } (transformed { s with tagin := x }) = tagFor s (transformed s) := rfl

theorem authentic_is : Authentic authentic := by
  rw [Authentic, authentic, tag_ignores_tagin]

theorem witness_CcmdecReturnsAuthenticPlaintext :
    authentic.ccmvalid = true ∧ authentic.mlen.toNat ≤ 16 ∧ authentic.tlen.toNat = authentic.mlen.toNat
      ∧ authentic.dlen.toNat < 65536 ∧ authentic.alen.toNat ≤ Config.abufCap ∧ Authentic authentic :=
  ⟨rfl, by decide, rfl, by decide, Nat.zero_le _, authentic_is⟩

/-- The same with the first byte of the tag inverted. -/
def forged : State := { authentic with tagin := authentic.tagin.set 0 (~~~authentic.tagin[0]) }

theorem forged_is : ¬Authentic forged := by
  have h : tagFor forged (transformed forged) = authentic.tagin := by
    rw [forged, tag_ignores_tagin, authentic, tag_ignores_tagin]
  intro ha
  rw [Authentic, h] at ha
  have h0 := congrArg (fun l => l[0]?) ha
  have ht : forged.tagin[0] = ~~~authentic.tagin[0] := by simp only [forged, Vector.getElem_set_self]
  have hm : forged.mlen.toNat = 8 := rfl
  simp [firstBytes, hm, ht] at h0

theorem witness_CcmdecZeroesOnMismatch :
    forged.ccmvalid = true ∧ forged.mlen.toNat ≤ 16 ∧ forged.tlen.toNat = forged.mlen.toNat
      ∧ forged.dlen.toNat < 65536 ∧ forged.alen.toNat ≤ Config.abufCap ∧ Memory.wf forged.dout ∧ ¬Authentic forged :=
  ⟨rfl, by decide, rfl, by decide, Nat.zero_le _, Memory.wf_nil, forged_is⟩

theorem witness_DecryptionInvertsEncryption :
    ∃ s t : State, s.ccmvalid = true ∧ s.mlen.toNat ≤ 16 ∧ s.dlen.toNat < 65536 ∧ s.alen.toNat ≤ Config.abufCap
      ∧ Memory.wf s.din ∧ Memory.wf s.dout ∧ exec .ccmenc s = .next t ∧ s.dlen = 4 :=
  have ⟨t, h⟩ := ccmenc_runs (withData [0x20, 0x21, 0x22, 0x23] (bound 8)) rfl (by decide) rfl
  ⟨_, t, rfl, by decide, by decide, Nat.zero_le _, memWriteBytes_wf _ Memory.wf_nil 0, Memory.wf_nil, h, rfl⟩

theorem witness_FormattedAadIsUnambiguous :
    ∃ a b : List Byte, a.length < 2 ^ 64 ∧ b.length < 2 ^ 64 ∧ fmtA a = fmtA b ∧ a ≠ [] :=
  ⟨[0x40], [0x40], by decide, by decide, rfl, by decide⟩

theorem witness_FlagsByteOfB0 : ∀ m ∈ [4, 6, 8, 10, 12, 14, 16], (b0Flags 0 m).toNat = 4 * m - 7 := by decide

theorem witness_CounterBlocksAreDistinct :
    ∃ i j : Nat, i < 65536 ∧ j < 65536 ∧ counterBlock nonceN i = counterBlock nonceN j ∧ i = 65535 :=
  ⟨65535, 65535, by decide, by decide, rfl, rfl⟩

theorem witness_FirstFailingCheckIsReported :
    firstError .keyexp State.reset = some .invalidKeySize ∧ firstError .encblk State.reset = some .notConstructed
      ∧ firstError .encblk keyed = some .invalidBlockSize ∧ firstError .ccminit State.reset = some .invalidTagLength
      ∧ firstError .ccminit { State.reset with maclen := 8 } = some .invalidNonceLength
      ∧ firstError .ccmdec { bound 8 with tlen := 8, dlen := 65536 } = some .plaintextTooLong := by decide

/-- An error of a command and one of a reserved code; test_ccmdec_tampered shows AuthenticationFailure. -/
theorem witness_ErrorsArePrecise :
    (∃ s t : State, Memory.wf s.dout ∧ issueCommand 0x01 s = .next t ∧ t.err ≠ .none)
      ∧ ∃ s t : State, Memory.wf s.dout ∧ issueCommand 0xFF s = .next t ∧ t.err ≠ .none :=
  ⟨⟨State.reset, failed .invalidKeySize State.reset, Memory.wf_nil, rfl, by decide⟩,
    State.reset, failed .unknownCommand State.reset, Memory.wf_nil, rfl, by decide⟩

theorem witness_EveryCommandCompletes : Instr.hostVisible .keyexp = true ∧ Instr.hostVisible .clear = true := by decide

theorem witness_CommandsIgnoreWorkingRegisters :
    ∃ s s' : State, s ≠ s' ∧ atRest s = atRest s' :=
  ⟨State.reset, { State.reset with regCTR := 1 }, by decide, rfl⟩

/-- Premises of the frames and of ValidFlagsFollowConstructions: a construction, a failed one, CLEAR and a data command. -/
theorem witness_ValidFlagsFollowConstructions :
    (∃ t, exec .keyexp (withKey keyK) = .next t) ∧ (∃ t, exec .keyexp keyed = .next t)
      ∧ (∃ t, exec .clear keyed = .next t) ∧ ∃ t, exec .encblk { keyed with dlen := 16 } = .next t :=
  ⟨⟨_, rfl⟩, ⟨_, rfl⟩, ⟨_, rfl⟩, ⟨_, rfl⟩⟩

theorem witness_DataCommandsLeaveTheContext :
    (∃ t, exec .encblk { keyed with dlen := 16 } = .next t)
      ∧ ∃ t, exec .keyexp { keyed with klen := 17 } = .next t ∧ t.err ≠ .none :=
  ⟨⟨_, rfl⟩, failed .invalidKeySize { keyed with klen := 17 }, rfl, by decide⟩

theorem witness_CommandsLeaveTheInputs :
    Instr.hostVisible .encblk = true ∧ Instr.encblk ≠ .clear ∧ ∃ t, exec .encblk { keyed with dlen := 16 } = .next t :=
  ⟨rfl, by decide, _, rfl⟩

theorem witness_OutputBytesOutsideTheResultStay :
    Memory.wf keyed.dout ∧ (∃ t, exec .encblk { keyed with dlen := 16 } = .next t)
      ∧ ∃ t, exec .ccmenc (withData [0x20, 0x21, 0x22, 0x23] (bound 8)) = .next t :=
  ⟨Memory.wf_nil, ⟨_, rfl⟩, ccmenc_runs _ rfl (by decide) rfl⟩

theorem witness_OkIsTheVerdict :
    Instr.hostVisible .cmacvfy = true ∧ Instr.cmacvfy ≠ .clear ∧ Instr.keyexp ≠ .cmacvfy
      ∧ (∃ t, exec .keyexp (withKey keyK) = .next t) ∧ ∃ t, exec .cmacvfy State.reset = .next t ∧ t.ok = false :=
  ⟨rfl, by decide, by decide, ⟨_, rfl⟩, failed .notConstructed State.reset, rfl, rfl⟩

/-- A state whose checks pass, one per row of the table; a failing check; the reserved codes at both ends of their ranges. -/
theorem witness_WorkCountsInClosedForm :
    (∀ c ∈ [(Instr.keyexp, withKey keyK), (.encblk, { keyed with dlen := 16 }), (.cmacinit, withKey keyR), (.ccminit, ready),
        (.clear, State.reset)], c.1.hostVisible = true ∧ firstError c.1 c.2 = none)
    ∧ (firstError .cmacgen maced = none ∧ firstError .cmacvfy maced = none)
    ∧ (firstError .ccmenc (bound 8) = none ∧ firstError .ccmdec { bound 8 with tlen := 8 } = none)
    ∧ firstError .encblk State.reset = some .notConstructed
    ∧ ∀ c ∈ [(0x00 : Byte), 0x0A, 0xFF], c = 0x00 ∨ 0x0A ≤ c.toNat := by
  exact ⟨by decide, ⟨rfl, rfl⟩, ⟨rfl, rfl⟩, by decide, by decide⟩

/-- A step from the reset state, which meets the invariant (ResetMeetsTheInvariant), that constructs nothing and one that does nothing. -/
theorem witness_StepKeepsTheInvariant :
    (∃ t, step State.reset = .next t) ∧ ∃ t, step { State.reset with host := [.writeReg 0 0x01] } = .next t :=
  ⟨⟨_, rfl⟩, ⟨_, rfl⟩⟩

end Sys2Proof.Tests
end

section
/-! PROOFS. The end of every command as one function of the state it starts in (10_state.md R48, R49, 60_exceptions.md R211, R212). -/

namespace Sys2Proof.Machine

/-- A case split over the nine host commands (R81). -/
theorem commandCases {motive : (i : Instr) → i.hostVisible = true → Prop}
    (keyexp : motive .keyexp rfl) (encblk : motive .encblk rfl) (cmacinit : motive .cmacinit rfl)
    (cmacgen : motive .cmacgen rfl) (cmacvfy : motive .cmacvfy rfl) (ccminit : motive .ccminit rfl)
    (ccmenc : motive .ccmenc rfl) (ccmdec : motive .ccmdec rfl) (clear : motive .clear rfl) :
    ∀ i h, motive i h
  | .keyexp, _ => keyexp
  | .encblk, _ => encblk
  | .cmacinit, _ => cmacinit
  | .cmacgen, _ => cmacgen
  | .cmacvfy, _ => cmacvfy
  | .ccminit, _ => ccminit
  | .ccmenc, _ => ccmenc
  | .ccmdec, _ => ccmdec
  | .clear, _ => clear

/-! ### The end of a command -/

/-- The results a data command may leave: OK, DOUT, TAGOUT, OLEN and TOLEN (R49). -/
def State.withResults (s : State) (ok : Bool) (dout : Memory) (tagout : Block) (olen : BitVec 64) (tolen : BitVec 8) : State :=
  { s with ok := ok, dout := dout, tagout := tagout, olen := olen, tolen := tolen }

theorem finish_withResults (s : State) (ok : Bool) (dout : Memory) (tagout : Block) (olen : BitVec 64) (tolen : BitVec 8) :
    finish (s.withResults ok dout tagout olen tolen) = (atRest s).withResults ok dout tagout olen tolen := rfl

@[simp] theorem withResults_dout (s : State) (ok : Bool) (dout : Memory) (tagout : Block) (olen : BitVec 64) (tolen : BitVec 8) :
    (s.withResults ok dout tagout olen tolen).dout = dout := rfl

@[simp] theorem withResults_tagout (s : State) (ok : Bool) (dout : Memory) (tagout : Block) (olen : BitVec 64) (tolen : BitVec 8) :
    (s.withResults ok dout tagout olen tolen).tagout = tagout := rfl

@[simp] theorem withResults_tolen (s : State) (ok : Bool) (dout : Memory) (tagout : Block) (olen : BitVec 64) (tolen : BitVec 8) :
    (s.withResults ok dout tagout olen tolen).tolen = tolen := rfl

/-- The end of a construction but for RK: OK, the valid flags, the subkeys and the binding (R41). -/
def State.withContext (s : State) (k1 k2 : Block) (nonce : Nonce) (m : BitVec 5) (sk ccm : Bool) : State :=
  { s with ok := true, kvalid := true, skvalid := sk, ccmvalid := ccm, k1 := k1, k2 := k2, nonce := nonce, mlen := m }

theorem finish_construction (s : State) (k1 k2 : Block) (nonce : Nonce) (m : BitVec 5) (sk ccm : Bool) :
    finish (succeed (setValid true sk ccm { s with nonce := nonce, mlen := m, k1 := k1, k2 := k2 }))
      = (atRest s).withContext k1 k2 nonce m sk ccm := rfl

/-- The comparator accepts the tag supplied to CCMDEC (R186, R148). -/
def tagAccepted (s : State) : Bool :=
  tagsMatch (firstBytes (tagFor s (transformed s)) s.mlen.toNat) s.tagin.toList s.tlen.toNat

/-- The state a command ends in once its checks have passed. An internal operation is no command and has no such end. -/
def completed (i : Instr) (s : State) : State :=
  match i with
  | .keyexp => constructed s zeroBlock zeroBlock zeroNonce 0 false false
  | .encblk =>
    (succeeded s).withResults true (memWriteBytes s.dout 0 (encryptBlock s.rk (blockOperand s)).toList) s.tagout 16 0
  | .cmacinit => constructed s (subkey1 (keySchedule s.keyin)) (subkey2 (keySchedule s.keyin)) zeroNonce 0 true false
  | .cmacgen => (succeeded s).withResults true s.dout (cmacTag s.rk s.k1 s.k2 (dataOperand s)) 0 16
  | .cmacvfy =>
    (succeeded s).withResults
      (tagsMatch (firstBytes (cmacTag s.rk s.k1 s.k2 (dataOperand s)) 16) s.tagin.toList s.tlen.toNat) s.dout s.tagout 0 0
  | .ccminit => constructed s zeroBlock zeroBlock s.noncein (s.maclen.setWidth 5) false true
  | .ccmenc =>
    (succeeded s).withResults true (memWriteBytes s.dout 0 (transformed s))
      (overlay s.mlen.toNat (tagFor s (dataOperand s)) s.tagout) s.dlen (s.mlen.setWidth 8)
  | .ccmdec =>
    if tagAccepted s then (succeeded s).withResults true (memWriteBytes s.dout 0 (transformed s)) s.tagout s.dlen 0
    else
      (failed .authenticationFailure s).withResults false
        (memWriteBytes (memWriteBytes s.dout 0 (transformed s)) 0 (List.replicate s.dlen.toNat 0)) s.tagout 0 0
  | .clear => resetAll s
  | _ => s

/-- The state after a list of checks: in the error the first failing one reports, else `t` (R211). -/
def endAfter (cs : List (Bool × ErrCode)) (s t : State) : State :=
  match firstFailing cs with
  | some e => failed e s
  | none => t

theorem endAfter_cons (b : Bool) (e : ErrCode) (cs : List (Bool × ErrCode)) (s t : State) :
    endAfter ((b, e) :: cs) s t = if b then failed e s else endAfter cs s t := by
  cases b <;> rfl

/-- The state a command ends in (R211, R212). -/
def commandEnd (i : Instr) (s : State) : State := endAfter (checks i s) s (completed i s)

theorem commandEnd_of_error {i : Instr} {s : State} {e : ErrCode} (h : firstError i s = some e) :
    commandEnd i s = failed e s := by
  rw [firstError] at h; rw [commandEnd, endAfter, h]

theorem commandEnd_of_no_error {i : Instr} {s : State} (h : firstError i s = none) :
    commandEnd i s = completed i s := by
  rw [firstError] at h; rw [commandEnd, endAfter, h]

/-! ### The checks as exec writes them -/

/-- A check of exec after the prologue is the next check of the table. -/
theorem check_eq_next_endAfter {c : Prop} [Decidable c] {b : Bool} {e : ErrCode} {cs : List (Bool × ErrCode)}
    {s t : State} {r : Result} (hc : c ↔ b = true) (hr : ¬c → r = .next (endAfter cs s t)) :
    (if c then .next (raise e (prologue s)) else r) = .next (endAfter ((b, e) :: cs) s t) := by
  by_cases h : c
  · rw [if_pos h, endAfter_cons, if_pos (hc.1 h), raise_prologue_eq_failed]
  · rw [if_neg h, endAfter_cons, if_neg (mt hc.2 h), hr h]

theorem check_length_iff {w : Nat} {x : BitVec w} {n : Nat} (hn : n < 2 ^ w) :
    x.toNat ≠ n ↔ decide (x ≠ BitVec.ofNat w n) = true := by
  rw [decide_eq_true_iff, not_iff_not, ← BitVec.toNat_inj, BitVec.toNat_ofNat, Nat.mod_eq_of_lt hn]

theorem check_flag_iff (b : Bool) : b = false ↔ (!b) = true := by cases b <;> decide

theorem check_tagLength_iff (n : Nat) :
    legalTagLength n = false ↔ decide (n < 4 ∨ 16 < n ∨ n % 2 ≠ 0) = true := by
  simp only [legalTagLength, Bool.and_eq_false_iff, decide_eq_false_iff_not, beq_eq_false_iff_ne, decide_eq_true_iff]
  omega

/-! ### Operands and the tag sequencers -/

theorem dataOperand_length (s : State) : (dataOperand s).length = s.dlen.toNat := memReadBytes_length _ _ _

theorem transformed_length (s : State) : (transformed s).length = s.dlen.toNat := by
  rw [transformed, ctrXor, List.length_mapIdx, dataOperand_length]

/-- States that agree at rest have the same round keys and the same nonce. -/
theorem context_eq_of_atRest_eq {u s : State} (h : atRest u = atRest s) : u.rk = s.rk ∧ u.nonce = s.nonce :=
  ⟨(congrArg State.rk h :), (congrArg State.nonce h :)⟩

/-- The two sequencers of a CCM tag leave the CBC-MAC in X and the tag mask in S0, together `Tm ^ S0` (R184). -/
theorem tagSequencers_mac (aad p : List Byte) (s : State) :
    xorBlock (runTagMask (runCbcMac aad p s)).regX (runTagMask (runCbcMac aad p s)).regS0
      = ccmMaskedMac s.rk s.nonce s.mlen.toNat aad p := by
  obtain ⟨hrk, hnonce⟩ := context_eq_of_atRest_eq (atRest_runCbcMac aad p s)
  rw [runTagMask_regX, runTagMask_regS0, runCbcMac_regX, hrk, hnonce, ccmMaskedMac]

theorem atRest_tagSequencers (aad p : List Byte) (s : State) :
    atRest (runTagMask (runCbcMac aad p s)) = atRest s := (atRest_runTagMask _).trans (atRest_runCbcMac _ _ _)

/-! ### exec of each command

Each proof goes through the checks in order and then names the state the sequencers leave, known by `atRest` and by the registers
the command's results come from. -/

theorem execKeyexp_eq (s : State) : execKeyexp s = .next (commandEnd .keyexp s) := by
  refine check_eq_next_endAfter (check_length_iff (by decide)) fun _ => congrArg _ ?_
  have hrest := atRest_expandKey (prologue s).keyin (prologue s)
  generalize expandKey _ _ = u at hrest ⊢
  rw [finish_construction, hrest]
  rfl

theorem execCmacinit_eq (s : State) : execCmacinit s = .next (commandEnd .cmacinit s) := by
  refine check_eq_next_endAfter (check_length_iff (by decide)) fun _ => congrArg _ ?_
  have hrest := atRest_deriveSubkeys (expandKey (prologue s).keyin (prologue s))
  rw [expandKey_rk, atRest_expandKey] at hrest
  generalize deriveSubkeys _ = u at hrest ⊢
  have hk1 : u.k1 = subkey1 (keySchedule s.keyin) := (congrArg State.k1 hrest :)
  have hk2 : u.k2 = subkey2 (keySchedule s.keyin) := (congrArg State.k2 hrest :)
  rw [finish_construction, hrest, hk1, hk2]
  rfl

theorem execCcminit_eq (s : State) : execCcminit s = .next (commandEnd .ccminit s) := by
  refine check_eq_next_endAfter (check_tagLength_iff _) fun _ =>
    check_eq_next_endAfter (check_length_iff (by decide)) fun _ =>
      check_eq_next_endAfter (check_length_iff (by decide)) fun _ => congrArg _ ?_
  have hrest := atRest_expandKey (prologue s).keyin (prologue s)
  generalize expandKey _ _ = u at hrest ⊢
  have hnonce : u.noncein = s.noncein := (congrArg State.noncein hrest :)
  have hmaclen : u.maclen = s.maclen := (congrArg State.maclen hrest :)
  rw [finish_construction, hrest, hnonce, hmaclen]
  rfl

theorem execEncblk_eq (s : State) : execEncblk s = .next (commandEnd .encblk s) := by
  refine check_eq_next_endAfter (check_flag_iff _) fun _ =>
    check_eq_next_endAfter (check_length_iff (by decide)) fun _ => congrArg _ ?_
  have hrest := atRest_encryptCore { prologue s with phase := .cipher, regS := blockOperand (prologue s) }
  have hS := congrArg State.regS (encryptCore_eq { prologue s with phase := .cipher, regS := blockOperand (prologue s) })
  generalize encryptCore _ = u at hrest hS ⊢
  change finish (u.withResults true (memWriteBytes (atRest u).dout 0 u.regS.toList) (atRest u).tagout 16 (atRest u).tolen) = _
  rw [finish_withResults, hrest, hS]
  rfl

theorem execCmacgen_eq (s : State) : execCmacgen s = .next (commandEnd .cmacgen s) := by
  refine check_eq_next_endAfter (check_flag_iff _) fun _ => check_eq_next_endAfter decide_eq_true_iff.symm fun _ => congrArg _ ?_
  have hrest := atRest_runCmac (dataOperand (prologue s)) (prologue s)
  have hX := runCmac_regX (dataOperand (prologue s)) (prologue s)
  generalize runCmac _ _ = u at hrest hX ⊢
  change finish (u.withResults true (atRest u).dout u.regX (atRest u).olen 16) = _
  rw [finish_withResults, hrest, hX]
  rfl

theorem execCmacvfy_eq (s : State) : execCmacvfy s = .next (commandEnd .cmacvfy s) := by
  refine check_eq_next_endAfter (check_flag_iff _) fun _ => check_eq_next_endAfter decide_eq_true_iff.symm fun _ => congrArg _ ?_
  have hrest := atRest_runCmac (dataOperand (prologue s)) (prologue s)
  have hX := runCmac_regX (dataOperand (prologue s)) (prologue s)
  generalize runCmac _ _ = u at hrest hX ⊢
  change finish (State.withResults { u with phase := .compare, regLB := u.regX }
    (tagsMatch (firstBytes u.regX 16) (atRest u).tagin.toList (atRest u).tlen.toNat)
    (atRest u).dout (atRest u).tagout (atRest u).olen (atRest u).tolen) = _
  rw [finish_withResults, show atRest { u with phase := .compare, regLB := u.regX } = atRest u from rfl, hrest, hX]
  rfl

theorem execCcmenc_eq (s : State) : execCcmenc s = .next (commandEnd .ccmenc s) := by
  refine check_eq_next_endAfter (check_flag_iff _) fun _ => check_eq_next_endAfter decide_eq_true_iff.symm fun hp =>
    check_eq_next_endAfter decide_eq_true_iff.symm fun _ => ?_
  have hlen : (dataOperand (prologue s)).length < 65536 := by rw [dataOperand_length]; exact Nat.lt_of_not_le hp
  have hu := atRest_tagSequencers (aadOperand (prologue s)) (dataOperand (prologue s)) (prologue s)
  have hmac := tagSequencers_mac (aadOperand (prologue s)) (dataOperand (prologue s)) (prologue s)
  dsimp only
  generalize runTagMask _ = u at hu hmac ⊢
  obtain ⟨hrk, hnonce⟩ := context_eq_of_atRest_eq hu
  have hv := (atRest_runCtr _ u hlen).trans hu
  have hout := runCtr_output _ u hlen
  have hX := runCtr_regX _ u hlen
  have hS0 := runCtr_regS0 _ u hlen
  generalize runCtr _ _ = v at hv hout hX hS0 ⊢
  have ht : atRest (formTag { v.1 with dout := memWriteBytes v.1.dout 0 v.2 })
    = { atRest v.1 with dout := memWriteBytes (atRest v.1).dout 0 v.2 } := rfl
  have hLB : (formTag { v.1 with dout := memWriteBytes v.1.dout 0 v.2 }).regLB = xorBlock v.1.regX v.1.regS0 := rfl
  generalize formTag _ = t at ht hLB ⊢
  change Host.Outcome.next (finish (t.withResults true (atRest t).dout (overlay (atRest t).mlen.toNat t.regLB (atRest t).tagout)
    (atRest t).dlen ((atRest t).mlen.setWidth 8))) = _
  rw [finish_withResults, hLB, hX, hS0, hmac, ht, hv, hout, hrk, hnonce]
  rfl

theorem finish_withLength (s : State) (n : BitVec 64) : finish { s with olen := n } = { atRest s with olen := n } := rfl

theorem raise_withDout (e : ErrCode) (s : State) (m : Memory) :
    raise e { s with dout := m } = { atRest s with ok := false, err := e, dout := m } := rfl

theorem execCcmdec_eq (s : State) : execCcmdec s = .next (commandEnd .ccmdec s) := by
  refine check_eq_next_endAfter (check_flag_iff _) fun _ => check_eq_next_endAfter decide_eq_true_iff.symm fun _ =>
    check_eq_next_endAfter decide_eq_true_iff.symm fun hp => check_eq_next_endAfter decide_eq_true_iff.symm fun _ => ?_
  have hlen : (dataOperand (prologue s)).length < 65536 := by rw [dataOperand_length]; exact Nat.lt_of_not_le hp
  have hv := atRest_runCtr _ (prologue s) hlen
  have hout : (runCtr (dataOperand (prologue s)) (prologue s)).2 = transformed s := runCtr_output _ _ hlen
  dsimp only
  generalize runCtr _ _ = v at hv hout ⊢
  -- the tag of the recovered plaintext
  have hu : atRest (runTagMask (runCbcMac (aadOperand (prologue s)) v.2 { v.1 with dout := memWriteBytes v.1.dout 0 v.2 }))
      = { atRest (prologue s) with dout := memWriteBytes (atRest (prologue s)).dout 0 (transformed s) } := by
    rw [atRest_tagSequencers, ← hv, ← hout]; rfl
  have hmac := tagSequencers_mac (aadOperand (prologue s)) v.2 { v.1 with dout := memWriteBytes v.1.dout 0 v.2 }
  generalize runTagMask _ = u at hu hmac ⊢
  have hLB : (formTag u).regLB = tagFor s (transformed s) := by
    obtain ⟨hrk, hnonce⟩ := context_eq_of_atRest_eq hv
    have hmlen : v.1.mlen = s.mlen := (congrArg State.mlen hv :)
    rw [formTag, hmac, hrk, hnonce, hmlen, hout]; rfl
  have ht := (atRest_formTag u).trans hu
  generalize formTag u = t at ht hLB ⊢
  -- the comparison
  have hok : (compareTag t.mlen.toNat { t with phase := .compare }).ok = tagAccepted s := by
    have htagin : t.tagin = s.tagin := (congrArg State.tagin ht :)
    have htlen : t.tlen = s.tlen := (congrArg State.tlen ht :)
    have hmlen : t.mlen = s.mlen := (congrArg State.mlen ht :)
    rw [compareTag, hLB, htagin, htlen, hmlen]; rfl
  have hc : atRest (compareTag t.mlen.toNat { t with phase := .compare })
      = { atRest t with ok := (compareTag t.mlen.toNat { t with phase := .compare }).ok } := rfl
  generalize compareTag _ _ = c at hok hc ⊢
  rw [ht] at hc
  have hdlen : c.dlen = s.dlen := (congrArg State.dlen hc :)
  have hdout : c.dout = memWriteBytes s.dout 0 (transformed s) := (congrArg State.dout hc :)
  rw [finish_withLength, raise_withDout, hc, hok, hdlen, hdout]
  change _ = Host.Outcome.next (completed .ccmdec s)
  rw [completed]
  cases tagAccepted s <;> rfl

theorem execClear_eq (s : State) : execClear s = .next (commandEnd .clear s) := rfl

/-- Every host command ends in its `commandEnd`: the one lemma about exec that the proofs below use. -/
theorem exec_eq_next_commandEnd {i : Instr} (h : i.hostVisible = true) (s : State) : exec i s = .next (commandEnd i s) := by
  cases i, h using commandCases with
  | keyexp => exact execKeyexp_eq s
  | encblk => exact execEncblk_eq s
  | cmacinit => exact execCmacinit_eq s
  | cmacgen => exact execCmacgen_eq s
  | cmacvfy => exact execCmacvfy_eq s
  | ccminit => exact execCcminit_eq s
  | ccmenc => exact execCcmenc_eq s
  | ccmdec => exact execCcmdec_eq s
  | clear => exact execClear_eq s

end Sys2Proof.Machine
end

section
/-! PROOFS. What the end of a command keeps and clears, whatever the command (10_state.md R41, R42, R49, 60_exceptions.md R212). -/

namespace Sys2Proof.Machine

theorem mem_of_firstFailing {cs : List (Bool × ErrCode)} {e : ErrCode} (h : firstFailing cs = some e) : ∃ c ∈ cs, c.2 = e := by
  induction cs with
  | nil => cases h
  | cons c cs ih =>
    obtain ⟨b, e'⟩ := c
    cases b with
    | true => exact ⟨(true, e'), .head _, Option.some.inj h⟩
    | false =>
      obtain ⟨c, hc, he⟩ := ih h
      exact ⟨c, .tail _ hc, he⟩

/-- Every check reports an error. -/
theorem firstError_ne_none {i : Instr} {s : State} {e : ErrCode} (h : firstError i s = some e) : e ≠ .none := by
  obtain ⟨c, hc, rfl⟩ := mem_of_firstFailing h
  revert c
  cases i <;> simp [checks]

/-- A command ends in an error one of its checks reports, or completed with no check failing. -/
theorem commandEnd_cases (i : Instr) (s : State) :
    (∃ e, e ≠ .none ∧ commandEnd i s = failed e s) ∨ firstError i s = none ∧ commandEnd i s = completed i s := by
  cases h : firstError i s with
  | some e => exact .inl ⟨e, firstError_ne_none h, commandEnd_of_error h⟩
  | none => exact .inr ⟨rfl, commandEnd_of_no_error h⟩

theorem eq_commandEnd_of_exec {i : Instr} {s t : State} (h : i.hostVisible = true) (he : exec i s = .next t) :
    t = commandEnd i s := by
  rw [exec_eq_next_commandEnd h] at he
  exact (Host.Outcome.next.inj he).symm

/-- The shapes of a command's end, CLEAR excepted: an error, results stored, a forged message's zeros, a construction. -/
inductive EndShape (s : State) : State → Prop where
  | error (e : ErrCode) : EndShape s (failed e s)
  | results (ok : Bool) (dout : Memory) (tagout : Block) (olen : BitVec 64) (tolen : BitVec 8) :
    EndShape s ((succeeded s).withResults ok dout tagout olen tolen)
  | forged (dout : Memory) : EndShape s ((failed .authenticationFailure s).withResults false dout s.tagout 0 0)
  | construction (k1 k2 : Block) (nonce : Nonce) (m : BitVec 5) (sk ccm : Bool) :
    EndShape s (constructed s k1 k2 nonce m sk ccm)

theorem endShape_commandEnd {i : Instr} (h : i.hostVisible = true) (hc : i ≠ .clear) (s : State) :
    EndShape s (commandEnd i s) := by
  obtain ⟨e, -, ht⟩ | ⟨-, ht⟩ := commandEnd_cases i s
  · rw [ht]; exact .error e
  · rw [ht]
    cases i, h using commandCases with
    | keyexp => exact .construction ..
    | encblk => exact .results ..
    | cmacinit => exact .construction ..
    | cmacgen => exact .results ..
    | cmacvfy => exact .results ..
    | ccminit => exact .construction ..
    | ccmenc => exact .results ..
    | ccmdec =>
      rw [completed]
      split
      · exact .results ..
      · exact .forged ..
    | clear => exact absurd rfl hc

/-! ### At rest (R42, R49) -/

/-- A command, CLEAR excepted, leaves the engine at rest. -/
theorem EndShape.atRest_eq {s t : State} (h : EndShape s t) : atRest t = t := by
  cases h <;> rfl

theorem EndShape.host_got_eq {s t : State} (h : EndShape s t) : t.host = s.host ∧ t.got = s.got := by
  cases h <;> exact ⟨rfl, rfl⟩

/-- A completed command reads nothing `atRest` forgets. -/
theorem completed_atRest {i : Instr} (h : i.hostVisible = true) (s : State) : completed i (atRest s) = completed i s := by
  cases i, h using commandCases <;> rfl

theorem checks_atRest (i : Instr) (s : State) : checks i (atRest s) = checks i s := by
  cases i <;> rfl

theorem endAfter_atRest (cs : List (Bool × ErrCode)) (s t : State) : endAfter cs (atRest s) t = endAfter cs s t := rfl

/-- No command reads what `atRest` forgets (R42). -/
theorem commandEnd_atRest {i : Instr} (h : i.hostVisible = true) (s : State) : commandEnd i (atRest s) = commandEnd i s := by
  rw [commandEnd, checks_atRest, completed_atRest h, endAfter_atRest, commandEnd]

/-- Settles O51: every command has an end, and that end is at rest (CLEAR: the reset state). -/
theorem everyCommandCompletes : Obligations.EveryCommandCompletes := by
  intro i s h
  refine ⟨commandEnd i s, exec_eq_next_commandEnd h s, ?_⟩
  by_cases hc : i = .clear
  · subst hc; exact ⟨rfl, rfl, rfl, rfl, rfl, rfl⟩
  · have hshape := endShape_commandEnd h hc s
    rw [decide_eq_false hc]
    refine ⟨?_, ?_, ?_, ?_, hshape.host_got_eq⟩ <;> rw [← hshape.atRest_eq] <;> rfl

/-- Settles O52: a command's end is that of the state at rest. -/
theorem commandsIgnoreWorkingRegisters : Obligations.CommandsIgnoreWorkingRegisters := by
  intro i s s' h hrest
  rw [exec_eq_next_commandEnd h, exec_eq_next_commandEnd h, ← commandEnd_atRest h s, hrest, commandEnd_atRest h s']

end Sys2Proof.Machine
end

section
/-! PROOFS. The invariant: what it does not read, and that reset, every host access and every command keep it. -/

namespace Sys2Proof.Machine

/-! ### What the invariant does not read -/

/-- The state without the registers the host writes, its pending accesses and its read values. -/
def forgetHost (s : State) : State :=
  { s with
    keyin := zeroBlock, noncein := zeroNonce, tagin := zeroBlock, klen := 0, nlen := 0, maclen := 0, tlen := 0
    alen := 0, dlen := 0, host := [], got := [] }

/-- The working registers are clear, one by one (R42). -/
theorem clearWorking_eq_self_iff (s : State) : clearWorking s = s ↔
    s.regS = zeroBlock ∧ s.regX = zeroBlock ∧ s.regA = zeroBlock ∧ s.regKS = zeroBlock ∧ s.regS0 = zeroBlock
      ∧ s.regT = zeroWord ∧ s.regLB = zeroBlock ∧ s.regCTR = 0 ∧ s.regRND = 0 ∧ s.regWI = 0 ∧ s.regBI = 0 := by
  cases s
  simp only [clearWorking, State.mk.injEq, true_and, and_true, eq_comm]

theorem clearWorking_forgetHost_iff (s : State) : clearWorking (forgetHost s) = forgetHost s ↔ clearWorking s = s := by
  rw [clearWorking_eq_self_iff, clearWorking_eq_self_iff]; rfl

/-- The invariant speaks of nothing the host writes but ABUF and DIN. -/
theorem inv_forgetHost_iff (s : State) : Inv (forgetHost s) ↔ Inv s :=
  ⟨fun h => { h with working := (clearWorking_forgetHost_iff s).1 h.working },
    fun h => { h with working := (clearWorking_forgetHost_iff s).2 h.working }⟩

/-- States that agree but for what the host writes meet the invariant together. -/
theorem Inv.of_forgetHost_eq {s t : State} (h : Inv s) (e : forgetHost t = forgetHost s) : Inv t := by
  rwa [← inv_forgetHost_iff, e, inv_forgetHost_iff]

theorem forgetHost_writeRegister (r : Reg) (v : BitVec 64) (s : State) :
    forgetHost (writeRegister r v s) = forgetHost s := by
  cases r <;> rfl

/-! ### Buffers -/

theorem bufferOk_nil (cap : Nat) : BufferOk cap [] := ⟨Memory.wf_nil, fun _ h => nomatch h⟩

theorem BufferOk.memWrite {cap : Nat} {m : Memory} (h : BufferOk cap m) {a : Nat} (ha : a < cap) (v : Byte) :
    BufferOk cap (memWrite m a v) := by
  refine ⟨memWrite_wf h.1 a v, fun c hc => ?_⟩
  obtain hm | rfl := mem_memWrite hc
  · exact h.2 c hm
  · exact ha

theorem BufferOk.memWriteBytes {cap : Nat} {m : Memory} (h : BufferOk cap m) {bs : List Byte} (hb : bs.length ≤ cap) :
    BufferOk cap (memWriteBytes m 0 bs) := by
  refine ⟨memWriteBytes_wf bs h.1 0, fun c hc => ?_⟩
  obtain hm | ⟨-, hlt⟩ := mem_memWriteBytes bs hc
  · exact h.2 c hm
  · omega

/-- A host write of one buffer byte keeps the invariant (R61 to R63). -/
theorem Inv.putByte {s : State} (h : Inv s) (b : Buffer) {a : Nat} (ha : a < capacity b) (v : Byte) :
    Inv (putByte b a v s) := by
  have hw := (clearWorking_eq_self_iff s).1 h.working
  cases b with
  | abuf => exact { h with abufOk := h.abufOk.memWrite ha v, working := (clearWorking_eq_self_iff _).2 hw }
  | din => exact { h with dinOk := h.dinOk.memWrite ha v, working := (clearWorking_eq_self_iff _).2 hw }
  | dout => exact h

/-! ### Reset -/

theorem inv_reset : Inv State.reset where
  abufOk := bufferOk_nil _
  dinOk := bufferOk_nil _
  doutOk := bufferOk_nil _
  idle := ⟨rfl, rfl⟩
  working := rfl
  keys := rfl
  subkeys := rfl
  binding := ⟨rfl, rfl⟩
  flags := by decide
  noResult := fun h => absurd rfl h
  results := by decide
  fresh := fun _ => ⟨rfl, rfl, rfl, rfl, rfl⟩

theorem inv_resetAll (s : State) : Inv (resetAll s) := inv_reset.of_forgetHost_eq rfl

/-! ### Commands -/

/-- An end with results keeps the invariant when its DOUT, OLEN and TOLEN are in bounds and an error has no result. -/
theorem Inv.withResults {s : State} (h : Inv s) (e : ErrCode) {ok : Bool} {dout : Memory} {tagout : Block} {olen : BitVec 64}
    {tolen : BitVec 8} (hdout : BufferOk Config.dbufCap dout)
    (hresults : olen.toNat ≤ 65535 ∧ tolen.toNat ≤ 16) (herr : e ≠ .none → ok = false ∧ olen = 0 ∧ tolen = 0) :
    Inv (State.withResults (atRest { s with err := e }) ok dout tagout olen tolen) :=
  { h with
    doutOk := hdout, idle := ⟨rfl, rfl⟩, working := rfl, noResult := herr, results := hresults
    fresh := fun hd => nomatch hd }

theorem Inv.failed {s : State} (h : Inv s) (e : ErrCode) : Inv (failed e s) :=
  have hend : Inv (State.withResults (atRest { s with err := e }) false s.dout s.tagout 0 0) :=
    h.withResults e h.doutOk (by decide) fun _ => ⟨rfl, rfl, rfl⟩
  hend

theorem roundKey_keySchedule_zero (key : Block) : roundKey (keySchedule key) 0 = key := by
  simp [roundKey, keySchedule, roundKeyOf]

/-- A construction keeps the invariant when its subkeys, its binding and its flags fit. -/
theorem Inv.constructed {s : State} (h : Inv s) {k1 k2 : Block} {nonce : Nonce} {m : BitVec 5} {sk ccm : Bool}
    (hsub : (k1, k2) = if sk then (subkey1 (keySchedule s.keyin), subkey2 (keySchedule s.keyin)) else (zeroBlock, zeroBlock))
    (hbind : if ccm then legalTagLength m.toNat = true else nonce = zeroNonce ∧ m = 0) (hflags : ¬(sk = true ∧ ccm = true)) :
    Inv (constructed s k1 k2 nonce m sk ccm) :=
  { h with
    idle := ⟨rfl, rfl⟩, working := rfl
    keys := congrArg keySchedule (roundKey_keySchedule_zero s.keyin).symm
    subkeys := hsub, binding := hbind, flags := ⟨fun _ => rfl, fun _ => rfl, hflags⟩
    noResult := fun hn => absurd rfl hn, results := ⟨Nat.zero_le _, Nat.zero_le _⟩, fresh := fun hd => nomatch hd }

theorem bufferOk_store {s : State} (h : Inv s) {bs : List Byte} (hb : bs.length ≤ 65535) :
    BufferOk Config.dbufCap (Machine.memWriteBytes s.dout 0 bs) := h.doutOk.memWriteBytes (hb.trans dbufCap_ge)

theorem firstFailing_eq_none {cs : List (Bool × ErrCode)} (h : firstFailing cs = none) {c : Bool × ErrCode} (hc : c ∈ cs) :
    c.1 = false := by
  induction cs with
  | nil => cases hc
  | cons d cs ih =>
    obtain ⟨b, e⟩ := d
    cases b with
    | true => cases h
    | false =>
      obtain _ | hc := List.mem_cons.1 hc
      · subst c; rfl
      · exact ih h hc

/-- A data command that passed its checks has a message of at most 65535 bytes (R206). -/
theorem dlen_le_of_no_error {i : Instr} {s : State} (h : firstError i s = none) (hi : i = .ccmenc ∨ i = .ccmdec) :
    s.dlen.toNat ≤ 65535 := by
  have hm : (decide (65536 ≤ s.dlen.toNat), ErrCode.plaintextTooLong) ∈ checks i s := by
    obtain rfl | rfl := hi <;> simp [checks]
  have := of_decide_eq_false (firstFailing_eq_none h hm)
  omega

theorem ccmvalid_of_no_error {s : State} (h : firstError .ccmenc s = none) : s.ccmvalid = true := by
  have hm : (!s.ccmvalid, ErrCode.notConstructed) ∈ checks .ccmenc s := .head _
  simpa using firstFailing_eq_none h hm

theorem le_of_legalTagLength {n : Nat} (h : legalTagLength n = true) : n ≤ 16 := by
  simp only [legalTagLength, Bool.and_eq_true, decide_eq_true_eq] at h
  omega

/-- CCMINIT latches a legal tag length, which MLEN's five bits hold (R160). -/
theorem legal_of_no_error {s : State} (h : firstError .ccminit s = none) :
    legalTagLength (s.maclen.setWidth 5).toNat = true := by
  have hlegal : legalTagLength s.maclen.toNat = true := by
    rw [← Bool.not_eq_false, check_tagLength_iff, Bool.not_eq_true]
    exact firstFailing_eq_none h (.head _)
  have := le_of_legalTagLength hlegal
  rwa [BitVec.toNat_setWidth, Nat.mod_eq_of_lt (by omega)]

/-- A completed command keeps the invariant. -/
theorem Inv.completed {i : Instr} {s : State} (h : Inv s) (hv : i.hostVisible = true) (hno : firstError i s = none) :
    Inv (completed i s) := by
  have noError (P : Prop) : ErrCode.none ≠ .none → P := fun hn => absurd rfl hn
  cases i, hv using commandCases with
  | keyexp => exact h.constructed rfl ⟨rfl, rfl⟩ (by decide)
  | cmacinit => exact h.constructed rfl ⟨rfl, rfl⟩ (by decide)
  | ccminit => exact h.constructed rfl (legal_of_no_error hno) (by decide)
  | encblk => exact h.withResults .none (bufferOk_store h (by simp)) (by decide) (noError _)
  | cmacgen => exact h.withResults .none h.doutOk (by decide) (noError _)
  | cmacvfy => exact h.withResults .none h.doutOk (by decide) (noError _)
  | ccmenc =>
    have hdlen := dlen_le_of_no_error hno (.inl rfl)
    have hbind := h.binding
    rw [if_pos (ccmvalid_of_no_error hno)] at hbind
    refine h.withResults .none (bufferOk_store h (by rwa [transformed_length])) ⟨hdlen, ?_⟩ (noError _)
    rw [BitVec.toNat_setWidth]
    exact (Nat.mod_le _ _).trans (le_of_legalTagLength hbind)
  | ccmdec =>
    have hdlen := dlen_le_of_no_error hno (.inr rfl)
    have hstore : BufferOk Config.dbufCap (memWriteBytes s.dout 0 (transformed s)) :=
      bufferOk_store h (by rwa [transformed_length])
    rw [Machine.completed]
    split
    · exact h.withResults .none hstore ⟨hdlen, Nat.zero_le _⟩ (noError _)
    · refine (h.failed .authenticationFailure).withResults .authenticationFailure ?_ (by decide) fun _ =>
        ⟨rfl, rfl, rfl⟩
      exact hstore.memWriteBytes (by rw [List.length_replicate]; exact hdlen.trans dbufCap_ge)
  | clear => exact inv_resetAll s

/-- Every command keeps the invariant. -/
theorem Inv.commandEnd {i : Instr} {s : State} (h : Inv s) (hv : i.hostVisible = true) : Inv (commandEnd i s) := by
  obtain ⟨e, -, ht⟩ | ⟨hno, ht⟩ := commandEnd_cases i s
  · rw [ht]; exact h.failed e
  · rw [ht]; exact h.completed hv hno

theorem hostVisible_of_decodeCommand {c : Byte} {i : Instr} (h : decodeCommand c = .ok i) : i.hostVisible = true := by
  unfold decodeCommand at h
  split at h <;> cases h <;> rfl

/-- A write to CMD keeps the invariant, whatever the code. -/
theorem Inv.issueCommand {s t : State} {c : Byte} (h : Inv s) (ht : issueCommand c s = .next t) : Inv t := by
  unfold Machine.issueCommand at ht
  split at ht
  case h_1 i hi =>
    have hv := hostVisible_of_decodeCommand hi
    rw [eq_commandEnd_of_exec hv ht]
    exact h.commandEnd hv
  case h_2 =>
    cases ht
    exact h.failed .unknownCommand

/-- Every host access keeps the invariant. -/
theorem Inv.hostAccess {s t : State} {a : Access} (h : Inv s) (ht : hostAccess a s = .next t) : Inv t := by
  cases a with
  | writeReg n v =>
    rw [Machine.hostAccess, hostWrite] at ht
    split at ht
    · cases ht
    · split at ht
      · exact h.issueCommand ht
      · cases ht
        exact h.of_forgetHost_eq (forgetHost_writeRegister _ v s)
  | readReg n =>
    cases ht
    exact h.of_forgetHost_eq rfl
  | put b addr v =>
    rw [Machine.hostAccess] at ht
    split at ht
    · cases ht
      exact h.putByte b ‹_› v
    · cases ht
  | get b addr =>
    rw [Machine.hostAccess] at ht
    split at ht
    · cases ht
      exact h.of_forgetHost_eq rfl
    · cases ht
  | reset =>
    cases ht
    exact inv_resetAll s

/-- Settles O59: nothing is held, so each part of the invariant is its case for zeros. -/
theorem resetMeetsTheInvariant : Obligations.ResetMeetsTheInvariant := inv_reset

/-- Settles O60: taking the next access off the list keeps the invariant, and so does performing it. -/
theorem stepKeepsTheInvariant : Obligations.StepKeepsTheInvariant := by
  intro s t h ht
  cases hs : s.host with
  | nil =>
    rw [step_of_no_host hs] at ht
    cases ht
    exact h
  | cons a rest =>
    rw [step_of_host hs] at ht
    have hrest : Inv { s with host := rest } := h.of_forgetHost_eq rfl
    exact hrest.hostAccess ht

end Sys2Proof.Machine
end

section
/-! PROOFS. What a command writes and what it leaves: the valid flags, the inputs, the bytes outside its result (10_state.md R24, R41, R49). -/

namespace Sys2Proof.Machine

/-- What a command, CLEAR excepted, does not write (R49). -/
theorem EndShape.inputs_eq {s t : State} (h : EndShape s t) :
    t.keyin = s.keyin ∧ t.noncein = s.noncein ∧ t.tagin = s.tagin ∧ t.klen = s.klen ∧ t.nlen = s.nlen
      ∧ t.maclen = s.maclen ∧ t.tlen = s.tlen ∧ t.alen = s.alen ∧ t.dlen = s.dlen ∧ t.abuf = s.abuf ∧ t.din = s.din := by
  cases h <;> exact ⟨rfl, rfl, rfl, rfl, rfl, rfl, rfl, rfl, rfl, rfl, rfl⟩

/-- Settles O55: no shape of a command's end touches an input. -/
theorem commandsLeaveTheInputs : Obligations.CommandsLeaveTheInputs := by
  intro i s t h hc ht
  rw [eq_commandEnd_of_exec h ht]
  exact (endShape_commandEnd h hc s).inputs_eq

/-! ### The valid flags -/

/-- KVALID, SKVALID and CCMVALID (R41). -/
def validFlags (s : State) : Bool × Bool × Bool := (s.kvalid, s.skvalid, s.ccmvalid)

theorem validFlags_withResults (s : State) (ok : Bool) (dout : Memory) (tagout : Block) (olen : BitVec 64) (tolen : BitVec 8) :
    validFlags (s.withResults ok dout tagout olen tolen) = validFlags s := rfl

theorem validFlags_constructed (s : State) (k1 k2 : Block) (nonce : Nonce) (m : BitVec 5) (sk ccm : Bool) :
    validFlags (constructed s k1 k2 nonce m sk ccm) = (true, sk, ccm) := rfl

/-- The valid flags a completed command leaves. -/
theorem validFlags_completed {i : Instr} (h : i.hostVisible = true) (s : State) :
    validFlags (completed i s) =
      if i = .clear then (false, false, false)
      else if i = .keyexp then (true, false, false)
      else if i = .cmacinit then (true, true, false)
      else if i = .ccminit then (true, false, true)
      else validFlags s := by
  cases i, h using commandCases with
  | keyexp => exact validFlags_constructed ..
  | cmacinit => exact validFlags_constructed ..
  | ccminit => exact validFlags_constructed ..
  | encblk => exact validFlags_withResults ..
  | cmacgen => exact validFlags_withResults ..
  | cmacvfy => exact validFlags_withResults ..
  | ccmenc => exact validFlags_withResults ..
  | ccmdec =>
    rw [completed]
    split <;> exact validFlags_withResults ..
  | clear => rfl

/-- A construction that completes has no error (R212). -/
theorem err_completed {i : Instr} (h : i = .keyexp ∨ i = .cmacinit ∨ i = .ccminit) (s : State) : (completed i s).err = .none := by
  obtain rfl | rfl | rfl := h <;> rfl

/-- Settles O53: an error keeps the flags, and a completed command sets those of its construction. -/
theorem validFlagsFollowConstructions : Obligations.ValidFlagsFollowConstructions := by
  intro i s t h ht
  rw [eq_commandEnd_of_exec h ht]
  change validFlags _ = _
  by_cases hc : i = .clear
  · subst hc; rfl
  rw [if_neg hc]
  obtain ⟨e, he, hend⟩ | ⟨-, hend⟩ := commandEnd_cases i s
  · rw [hend, failed_err, if_pos he]; rfl
  · rw [hend, validFlags_completed h, if_neg hc]
    by_cases hcons : i = .keyexp ∨ i = .cmacinit ∨ i = .ccminit
    · rw [err_completed hcons]; rfl
    · simp only [not_or] at hcons
      obtain ⟨h1, h2, h3⟩ := hcons
      simp only [if_neg h1, if_neg h2, if_neg h3, ite_self]
      rfl

/-! ### Bytes outside the result -/

theorem memRead_store_of_le {m : Memory} (hm : Memory.wf m) {bs : List Byte} {a : Nat} (ha : bs.length ≤ a) :
    memRead (memWriteBytes m 0 bs) a = memRead m a := by
  rw [memRead_memWriteBytes bs hm, if_neg (by omega)]

theorem overlay_getElem_of_le {n k : Nat} (new old : Block) (h : k < 16) (hn : n ≤ k) : (overlay n new old)[k] = old[k] := by
  rw [overlay, Vector.getElem_ofFn, if_neg (Nat.not_lt.2 hn)]; rfl

/-- Where the result a command stores to DOUT ends (R49, R76). -/
def resultEnd (i : Instr) (s : State) : Nat :=
  if i = .encblk then 16 else if i = .ccmenc ∨ i = .ccmdec then s.dlen.toNat else 0

theorem dout_completed_of_le {i : Instr} {s : State} (h : i.hostVisible = true) (hc : i ≠ .clear) (hw : Memory.wf s.dout)
    {a : Nat} (ha : resultEnd i s ≤ a) : memRead (completed i s).dout a = memRead s.dout a := by
  cases i, h using commandCases with
  | encblk =>
    rw [completed, withResults_dout]
    exact memRead_store_of_le hw (by rwa [Vector.length_toList])
  | ccmenc =>
    rw [completed, withResults_dout]
    exact memRead_store_of_le hw (by rwa [transformed_length])
  | ccmdec =>
    have hlen : (transformed s).length ≤ a := by rwa [transformed_length]
    rw [completed]
    split
    · rw [withResults_dout, memRead_store_of_le hw hlen]
    · rw [withResults_dout, memRead_store_of_le (memWriteBytes_wf _ hw 0) (by rwa [List.length_replicate]),
        memRead_store_of_le hw hlen]
  | clear => exact absurd rfl hc
  | _ => rfl

theorem tagout_completed_of_le {i : Instr} {s : State} (h : i.hostVisible = true) (hc : i ≠ .clear)
    {k : Nat} (hk : k < 16) (ha : (completed i s).tolen.toNat ≤ k) : (completed i s).tagout[k] = s.tagout[k] := by
  cases i, h using commandCases with
  | cmacgen => exact absurd ha (Nat.not_le.2 hk)
  | ccmenc =>
    have hm : s.mlen.toNat < 2 ^ 5 := s.mlen.isLt
    simp only [completed, withResults_tolen, withResults_tagout] at ha ⊢
    rw [BitVec.toNat_setWidth, Nat.mod_eq_of_lt (by omega)] at ha
    exact overlay_getElem_of_le _ _ hk ha
  | ccmdec =>
    simp only [completed]
    split <;> rfl
  | clear => exact absurd rfl hc
  | _ => rfl

/-- Settles O56: an error stores nothing, and a completed command stores below the end of its result. -/
theorem outputBytesOutsideTheResultStay : Obligations.OutputBytesOutsideTheResultStay := by
  intro i s t h hc hw ht
  rw [eq_commandEnd_of_exec h ht]
  obtain ⟨e, -, hend⟩ | ⟨-, hend⟩ := commandEnd_cases i s
  · rw [hend]; exact ⟨fun _ _ => rfl, fun _ _ _ => rfl⟩
  · rw [hend]; exact ⟨fun _ ha => dout_completed_of_le h hc hw ha, fun _ hk ha => tagout_completed_of_le h hc hk ha⟩

end Sys2Proof.Machine
end

section
/-! PROOFS. The register map and the host's moves (10_state.md R36, R37, 45_system.md R196). -/

namespace Sys2Proof.Machine

/-! ### The register map (R36) -/

theorem regOf_keyin (i : Fin 16) : regOf (16 + i) = .keyin i := by revert i; decide

theorem regOf_noncein (i : Fin 13) : regOf (32 + i) = .noncein i := by revert i; decide

theorem regOf_tagin (i : Fin 16) : regOf (48 + i) = .tagin i := by revert i; decide

theorem regOf_tagout (i : Fin 16) : regOf (64 + i) = .tagout i := by revert i; decide

theorem regOf_of_ge {n : Nat} (h : 80 ≤ n) : regOf n = .reserved := by
  obtain ⟨m, rfl⟩ := Nat.exists_eq_add_of_le' h
  change byteRegOf (m + 80) = .reserved
  rw [byteRegOf, dif_neg (by omega), dif_neg (by omega), dif_neg (by omega), dif_neg (by omega)]

/-- A fact about every register number holds if it holds below 80 and of the reserved numbers above. -/
theorem regOf_ind {motive : Nat → Reg → Prop} (hlt : ∀ n, n < 80 → motive n (regOf n)) (hge : ∀ n, 80 ≤ n → motive n .reserved)
    (n : Nat) : motive n (regOf n) := by
  by_cases h : n < 80
  · exact hlt n h
  · rw [regOf_of_ge (Nat.le_of_not_lt h)]; exact hge n (Nat.le_of_not_lt h)

theorem regOf_eq_reserved_iff (n : Nat) : regOf n = .reserved ↔ (10 ≤ n ∧ n ≤ 15) ∨ (45 ≤ n ∧ n ≤ 47) ∨ 80 ≤ n :=
  regOf_ind (motive := fun n r => r = .reserved ↔ (10 ≤ n ∧ n ≤ 15) ∨ (45 ≤ n ∧ n ≤ 47) ∨ 80 ≤ n) (by decide)
    (fun n h => ⟨fun _ => .inr (.inr h), fun _ => rfl⟩) n

theorem hostWritable_regOf_iff (n : Nat) :
    hostWritable (regOf n) = true ↔ n = 0 ∨ (2 ≤ n ∧ n ≤ 7) ∨ (16 ≤ n ∧ n ≤ 44) ∨ (48 ≤ n ∧ n ≤ 63) :=
  regOf_ind (motive := fun n r => hostWritable r = true ↔ n = 0 ∨ (2 ≤ n ∧ n ≤ 7) ∨ (16 ≤ n ∧ n ≤ 44) ∨ (48 ≤ n ∧ n ≤ 63))
    (by decide) (fun n h => ⟨(fun hw => nomatch hw), fun hn => by omega⟩) n

theorem regWidth_regOf (n : Nat) : regWidth (regOf n) =
    if n = 1 then 16 else if 2 ≤ n ∧ n ≤ 5 then 32 else if 6 ≤ n ∧ n ≤ 8 then 64 else if regOf n = .reserved then 0 else 8 :=
  regOf_ind (motive := fun n r => regWidth r =
      if n = 1 then 16 else if 2 ≤ n ∧ n ≤ 5 then 32 else if 6 ≤ n ∧ n ≤ 8 then 64 else if r = .reserved then 0 else 8)
    (by decide)
    (fun n h => by rw [if_neg (by omega), if_neg (by omega), if_neg (by omega), if_pos rfl]; rfl) n

theorem regOf_regNumber {r : Reg} (h : r ≠ .reserved) : regOf (regNumber r) = r := by
  cases r with
  | keyin i => exact regOf_keyin i
  | noncein i => exact regOf_noncein i
  | tagin i => exact regOf_tagin i
  | tagout i => exact regOf_tagout i
  | reserved => exact absurd rfl h
  | _ => rfl

/-- Settles O10: the map by blocks of byte registers, and by its 80 numbers with the reserved ones above. -/
theorem registerNumbersFollowTheMap : Obligations.RegisterNumbersFollowTheMap :=
  ⟨⟨rfl, rfl, rfl, rfl, rfl, rfl, rfl, rfl, rfl, rfl⟩, regOf_keyin, regOf_noncein, regOf_tagin, regOf_tagout,
    regOf_eq_reserved_iff, fun _ => regOf_regNumber, regWidth_regOf, hostWritable_regOf_iff⟩

/-! ### Host writes (R33, R37) -/

theorem hostWrite_of_not_writable {r : Reg} (h : hostWritable r = false) (v : BitVec 64) (s : State) :
    hostWrite r v s = .next s := by
  have hc : r ≠ .cmd := by rintro rfl; cases h
  rw [hostWrite_of_fits (by rw [fitsRegister, h]; rfl) hc, writeRegister_of_not_writable h]

theorem hostWrite_of_too_wide {r : Reg} {v : BitVec 64} (hw : hostWritable r = true) (hv : 2 ^ regWidth r ≤ v.toNat) (s : State) :
    hostWrite r v s = .refused .hostValueTooWide := by
  rw [hostWrite, if_pos (by rw [fitsRegister, hw, decide_eq_false (Nat.not_lt.2 hv)]; rfl)]

/-- A write of a value of its width to CMD issues the command (R33). -/
theorem hostWrite_cmd (c : Byte) (s : State) : hostWrite .cmd (c.setWidth 64) s = issueCommand c s := by
  have hfits : fitsRegister .cmd (c.setWidth 64) = true := by
    rw [fitsRegister, BitVec.toNat_setWidth_of_le (by decide), decide_eq_true (show c.toNat < 2 ^ regWidth .cmd from c.isLt)]
    rfl
  rw [hostWrite, if_neg (by rw [hfits]; decide), if_pos rfl, BitVec.setWidth_setWidth_of_le _ (by decide), BitVec.setWidth_eq]

/-- Settles O11: the numbers named are those the map gives no W. -/
theorem readOnlyRegistersIgnoreWrites : Obligations.ReadOnlyRegistersIgnoreWrites := by
  intro s n v rest hs hn
  have hw : hostWritable (regOf n) = false := by
    rw [← Bool.not_eq_true, hostWritable_regOf_iff]; omega
  rw [step_of_host hs, hostAccess, hostWrite_of_not_writable hw]

/-- A table word of 8 bits is the command byte (R80, log entry 13). -/
theorem encodedOfTableWord_byte (c : Byte) : encodedOfTableWord 8 c.toNat = .cmd8 c := by
  rw [encodedOfTableWord, if_neg (by decide), BitVec.ofNat_toNat, BitVec.setWidth_eq]

theorem decodeCommand_of_decodeTableWord {c : Byte} {i : Instr} (h : decodeTableWord 8 c.toNat = some i) :
    decodeCommand c = .ok i := by
  rw [decodeTableWord, encodedOfTableWord_byte, decode] at h
  split at h
  case h_1 j hj => rw [hj, Option.some.inj h]
  case h_2 => cases h

/-- Settles O4: a write of a command byte always fits CMD, and the placed access is the next one. -/
theorem stepRunsTheIssuedCommand : Obligations.StepRunsTheIssuedCommand := by
  have hstep {s : State} {c : Byte} {rest : List Access} (hs : s.host = .writeReg 0 (c.setWidth 64) :: rest) :
      step s = issueCommand c { s with host := rest } := by
    rw [step_of_host hs]; exact hostWrite_cmd c _
  refine ⟨fun s c i rest hs hi => ?_, fun s c e rest hs he => ?_, fun s c i hi => ?_⟩
  · rw [hstep hs, issueCommand, hi]
  · rw [hstep hs, issueCommand, he]; rfl
  · have hhost : (s.withFetchWord 8 c.toNat).host = .writeReg 0 (c.setWidth 64) :: s.host := by
      rw [State.withFetchWord, accessOfTableWord, encodedOfTableWord_byte]; rfl
    rw [hstep hhost, issueCommand, decodeCommand_of_decodeTableWord hi]
    rfl

/-- Settles O15: the capacity test and the width test fail. -/
theorem hostMovesOutsideTheSpecStop : Obligations.HostMovesOutsideTheSpecStop := by
  intro s rest
  refine ⟨fun b a ha => ⟨fun v hs => ?_, fun hs => ?_⟩, fun n v hs hn => ?_⟩
  · rw [step_of_host hs, hostAccess, if_neg (Nat.not_lt.2 ha)]
  · rw [step_of_host hs, hostAccess, if_neg (Nat.not_lt.2 ha)]
  · have hw : hostWritable (regOf n) = true := by rw [hostWritable_regOf_iff]; omega
    have hres : regOf n ≠ .reserved := by rw [ne_eq, regOf_eq_reserved_iff]; omega
    have hv : 2 ^ regWidth (regOf n) ≤ v.toNat := by
      rw [regWidth_regOf, if_neg hres]
      split_ifs <;> omega
    rw [step_of_host hs, hostAccess, hostWrite_of_too_wide hw hv]

/-! ### Host reads (R37, R69) -/

theorem step_of_read {s : State} {n : Nat} {rest : List Access} (hs : s.host = .readReg n :: rest) :
    step s = .next { s with host := rest, got := readRegister (regOf n) { s with host := rest } :: s.got } := step_of_host hs

/-- Settles O12: the numbers named are CMD, the bytes of KEYIN and the reserved ones, which read 0. -/
theorem writeOnlyRegistersReadZero : Obligations.WriteOnlyRegistersReadZero := by
  intro s n rest hs hn
  have hreg : regOf n = .cmd ∨ regOf n = .reserved ∨ ∃ i, regOf n = .keyin i := by
    obtain rfl | hn := hn
    · exact .inl rfl
    · by_cases hk : 16 ≤ n ∧ n ≤ 31
      · have hi := regOf_keyin ⟨n - 16, by omega⟩
        rw [Nat.add_sub_cancel' hk.1] at hi
        exact .inr (.inr ⟨_, hi⟩)
      · exact .inr (.inl ((regOf_eq_reserved_iff n).2 (by omega)))
  rw [step_of_read hs]
  obtain h | h | ⟨i, h⟩ := hreg <;> rw [h] <;> rfl

/-! ### What a written register reads as (R36, R37) -/

theorem fitsRegister_of_lt {r : Reg} {v : BitVec 64} (h : v.toNat < 2 ^ regWidth r) : fitsRegister r v = true := by
  rw [fitsRegister, decide_eq_true h, Bool.or_true]

/-- A value that fits a register's width comes back from it unchanged. -/
theorem setWidth_64_setWidth_of_lt {w : Nat} {v : BitVec 64} (h : v.toNat < 2 ^ w) : (v.setWidth w).setWidth 64 = v := by
  apply BitVec.eq_of_toNat_eq
  rw [BitVec.toNat_setWidth, BitVec.toNat_setWidth, Nat.mod_eq_of_lt h, Nat.mod_eq_of_lt v.isLt]

theorem setIfInBounds_of_lt {n i : Nat} (x : Bytes n) (b : Byte) (h : i < n) : x.setIfInBounds i b = x.set i b := by
  ext j hj
  rw [Vector.getElem_setIfInBounds, Vector.getElem_set]

/-- A register the host may write and read reads as the value written, if it fits. -/
theorem readRegister_writeRegister {r : Reg} {v : BitVec 64} (hw : hostWritable r = true) (hc : r ≠ .cmd)
    (hk : ∀ i, r ≠ .keyin i) (hv : v.toNat < 2 ^ regWidth r) (s : State) : readRegister r (writeRegister r v s) = v := by
  cases r with
  | cmd => exact absurd rfl hc
  | klen => exact setWidth_64_setWidth_of_lt hv
  | nlen => exact setWidth_64_setWidth_of_lt hv
  | maclen => exact setWidth_64_setWidth_of_lt hv
  | tlen => exact setWidth_64_setWidth_of_lt hv
  | alen => rfl
  | dlen => rfl
  | keyin i => exact absurd rfl (hk i)
  | noncein i =>
    simp only [readRegister, writeRegister, Fin.getElem_fin, Vector.getElem_set_self]
    exact setWidth_64_setWidth_of_lt hv
  | tagin i =>
    simp only [readRegister, writeRegister, Fin.getElem_fin, Vector.getElem_set_self]
    exact setWidth_64_setWidth_of_lt hv
  | _ => cases hw

/-- The state after a write of `v` to the writable register numbered `n`, CMD excepted, by the table of R36. -/
def stored (n : Nat) (v : BitVec 64) (s : State) : State :=
  if n = 2 then { s with klen := v.setWidth 32 }
  else if n = 3 then { s with nlen := v.setWidth 32 }
  else if n = 4 then { s with maclen := v.setWidth 32 }
  else if n = 5 then { s with tlen := v.setWidth 32 }
  else if n = 6 then { s with alen := v }
  else if n = 7 then { s with dlen := v }
  else if n < 32 then { s with keyin := s.keyin.setIfInBounds (n - 16) (v.setWidth 8) }
  else if n < 45 then { s with noncein := s.noncein.setIfInBounds (n - 32) (v.setWidth 8) }
  else { s with tagin := s.tagin.setIfInBounds (n - 48) (v.setWidth 8) }

theorem stored_of_ge {n : Nat} (h : 16 ≤ n) (v : BitVec 64) (s : State) : stored n v s =
    if n < 32 then { s with keyin := s.keyin.setIfInBounds (n - 16) (v.setWidth 8) }
    else if n < 45 then { s with noncein := s.noncein.setIfInBounds (n - 32) (v.setWidth 8) }
    else { s with tagin := s.tagin.setIfInBounds (n - 48) (v.setWidth 8) } := by
  rw [stored, if_neg (by omega), if_neg (by omega), if_neg (by omega), if_neg (by omega), if_neg (by omega),
    if_neg (by omega)]

/-- A writable number but CMD's is a length register's or that of a byte of KEYIN, NONCEIN or TAGIN. -/
theorem writableNumber_cases {n : Nat} (hw : hostWritable (regOf n) = true) (hc : regOf n ≠ .cmd) :
    (2 ≤ n ∧ n ≤ 7) ∨ (∃ i : Fin 16, n = 16 + i) ∨ (∃ i : Fin 13, n = 32 + i) ∨ ∃ i : Fin 16, n = 48 + i := by
  obtain rfl | h | h | h := (hostWritable_regOf_iff n).1 hw
  · exact absurd rfl hc
  · exact .inl h
  · by_cases h32 : n < 32
    · exact .inr (.inl ⟨⟨n - 16, by omega⟩, (Nat.add_sub_cancel' h.1).symm⟩)
    · exact .inr (.inr (.inl ⟨⟨n - 32, by omega⟩, (Nat.add_sub_cancel' (Nat.le_of_not_lt h32)).symm⟩))
  · exact .inr (.inr (.inr ⟨⟨n - 48, by omega⟩, (Nat.add_sub_cancel' h.1).symm⟩))

theorem writeRegister_regOf {n : Nat} (hw : hostWritable (regOf n) = true) (hc : regOf n ≠ .cmd) (v : BitVec 64) (s : State) :
    writeRegister (regOf n) v s = stored n v s := by
  obtain h | ⟨i, rfl⟩ | ⟨i, rfl⟩ | ⟨i, rfl⟩ := writableNumber_cases hw hc
  · obtain ⟨h2, h7⟩ := h
    interval_cases n <;> rfl
  · rw [regOf_keyin, stored_of_ge (by omega), if_pos (by omega), Nat.add_sub_cancel_left, setIfInBounds_of_lt _ _ i.isLt]
    rfl
  · rw [regOf_noncein, stored_of_ge (by omega), if_neg (by omega), if_pos (by omega), Nat.add_sub_cancel_left,
      setIfInBounds_of_lt _ _ i.isLt]
    rfl
  · rw [regOf_tagin, stored_of_ge (by omega), if_neg (by omega), if_neg (by omega), Nat.add_sub_cancel_left,
      setIfInBounds_of_lt _ _ i.isLt]
    rfl

theorem regNumber_regOf {n : Nat} (h : regOf n ≠ .reserved) : regNumber (regOf n) = n :=
  regOf_ind (motive := fun n r => r ≠ .reserved → regNumber r = n) (by decide) (fun _ _ hne => absurd rfl hne) n h

/-- Settles O13: the value fits its register, so the write stores it, and the register reads it back. -/
theorem writtenRegistersReadBack : Obligations.WrittenRegistersReadBack := by
  intro s n v rest hs hn u t
  have hw : hostWritable (regOf n) = true := by rw [hostWritable_regOf_iff]; omega
  have hres : regOf n ≠ .reserved := by rw [ne_eq, regOf_eq_reserved_iff]; omega
  have hnum := regNumber_regOf hres
  have hc : regOf n ≠ .cmd := by intro h; rw [h] at hnum; simp only [regNumber] at hnum; omega
  have hv : v.toNat < 2 ^ regWidth (regOf n) := by
    have := v.isLt
    rw [regWidth_regOf, if_neg hres]
    split_ifs <;> omega
  have ht : writeRegister (regOf n) v u = t := writeRegister_regOf hw hc v u
  refine ⟨?_, fun hk => ?_⟩
  · rw [step_of_host hs, hostAccess, hostWrite_of_fits (fitsRegister_of_lt hv) hc, ht]
  · rw [← ht]
    refine readRegister_writeRegister hw hc (fun i h => ?_) hv u
    rw [h] at hnum
    simp only [regNumber] at hnum
    omega

/-! ### STATUS (R34, R201) -/

theorem flagBit_getLsbD (b : Bool) : (flagBit b).getLsbD 0 = b := by cases b <;> rfl

/-- Above its six flags, STATUS is ERR between reserved zeros. -/
theorem statusWord_extractLsb' (s : State) (start len : Nat) (h : 6 ≤ start) :
    (statusWord s).extractLsb' start len = (0#4 ++ errNumber s.err ++ 0#2).extractLsb' (start - 6) len := by
  rw [statusWord, BitVec.extractLsb'_append_eq_of_le (by omega), BitVec.extractLsb'_append_eq_of_le (by omega),
    BitVec.extractLsb'_append_eq_of_le (by omega), BitVec.extractLsb'_append_eq_of_le (by omega),
    BitVec.extractLsb'_append_eq_of_le (by omega), BitVec.extractLsb'_append_eq_of_le (by omega)]
  simp only [Nat.sub_sub]

theorem statusWord_flags (s : State) :
    (statusWord s).getLsbD 0 = s.done ∧ (statusWord s).getLsbD 1 = s.busy ∧ (statusWord s).getLsbD 2 = s.kvalid
      ∧ (statusWord s).getLsbD 3 = s.skvalid ∧ (statusWord s).getLsbD 4 = s.ccmvalid ∧ (statusWord s).getLsbD 5 = s.ok := by
  simp only [statusWord, BitVec.getLsbD_append]
  exact ⟨flagBit_getLsbD _, flagBit_getLsbD _, flagBit_getLsbD _, flagBit_getLsbD _, flagBit_getLsbD _, flagBit_getLsbD _⟩

/-- Settles O9: the six low bits are the flags of the concatenation one by one, the other fields its upper parts. -/
theorem statusBitsAreTheFlags : Obligations.StatusBitsAreTheFlags := by
  refine ⟨fun s rest hs => step_of_read hs, fun s => ?_⟩
  obtain ⟨hdone, hbusy, hk, hsk, hccm, hok⟩ := statusWord_flags s
  refine ⟨rfl, hdone, hbusy, hk, hsk, hccm, hok, ?_, ?_, ?_⟩
  · rw [statusWord_extractLsb' s 6 2 (by omega)]
    exact BitVec.extractLsb'_append_eq_right
  · rw [statusWord_extractLsb' s 12 4 (by omega), BitVec.extractLsb'_append_eq_of_le (by omega)]
    exact BitVec.extractLsb'_append_eq_left
  · rw [statusWord_extractLsb' s 8 4 (by omega), BitVec.extractLsb'_append_eq_of_le (by omega),
      BitVec.extractLsb'_append_eq_right]
    cases s.err <;> rfl

/-- Settles O6: every register and every buffer byte of the reset state, by its value. -/
theorem resetLeavesEverythingZero : Obligations.ResetLeavesEverythingZero := by
  refine ⟨⟨rfl, rfl, rfl, rfl⟩, ⟨rfl, rfl, rfl, rfl, rfl, rfl, rfl, rfl⟩, rfl, ⟨rfl, rfl, rfl, rfl, rfl⟩,
    ⟨rfl, rfl, rfl, rfl, rfl, rfl, rfl, rfl, rfl, rfl, rfl⟩, rfl, fun b a => ?_⟩
  cases b <;> rfl

end Sys2Proof.Machine
end

section
/-! PROOFS. The host's bytes and what its reads return (10_state.md R61 to R63, R69). -/

namespace Sys2Proof.Machine

/-- A step that puts a byte below the capacity stores it on the state without the access. -/
theorem step_of_put {s : State} {b : Buffer} {a : Nat} {v : Byte} {rest : List Access} (hs : s.host = .put b a v :: rest)
    (ha : a < capacity b) : step s = .next (putByte b a v { s with host := rest }) := by
  rw [step_of_host hs, hostAccess, if_pos ha]

/-- A step that gets a byte below the capacity answers it and changes nothing else. -/
theorem step_of_get {s : State} {b : Buffer} {a : Nat} {rest : List Access} (hs : s.host = .get b a :: rest)
    (ha : a < capacity b) :
    step s = .next (answer ((memRead (bufferOf b { s with host := rest }) a).setWidth 64) { s with host := rest }) := by
  rw [step_of_host hs, hostAccess, if_pos ha]

/-- No register shows the host's own list of accesses. -/
theorem readRegister_withHost (r : Reg) (s : State) (rest : List Access) :
    readRegister r { s with host := rest } = readRegister r s := by
  cases r <;> rfl

theorem bufferOf_withHost (b : Buffer) (s : State) (rest : List Access) :
    bufferOf b { s with host := rest } = bufferOf b s := by
  cases b <;> rfl

/-- Settles O14: the step is the put on the state without the access, and a canonical buffer reads over a write. -/
theorem putBytesReadBack : Obligations.PutBytesReadBack := by
  intro s b a v rest hs ha hwf
  refine ⟨?_, fun a' => memRead_memWrite hwf a a' v⟩
  rw [step_of_put hs ha]
  cases b <;> rfl

/-- Settles O16: a read answers a value that does not depend on the access, and the map gives the register of each number. -/
theorem hostReadsHaveNoSideEffect : Obligations.HostReadsHaveNoSideEffect := by
  refine ⟨fun s rest => ⟨fun n hs => ?_, fun b a hs ha => ?_⟩,
    fun s => ⟨⟨rfl, rfl, rfl, rfl, rfl, rfl, rfl, rfl⟩, fun i h => ?_, fun i h => ?_, fun i h => ?_⟩⟩
  · rw [step_of_read hs, readRegister_withHost]
  · rw [step_of_get hs ha, bufferOf_withHost]
    rfl
  · rw [regOf_noncein ⟨i, h⟩]
    rfl
  · rw [regOf_tagin ⟨i, h⟩]
    rfl
  · rw [regOf_tagout ⟨i, h⟩]
    rfl

end Sys2Proof.Machine
end

section
/-! PROOFS. The decoder and the encoder are inverse, and a reserved code is rejected (30_encoding.md R81, R82, R94). -/

namespace Sys2Proof.Machine

theorem decode_encode (i : Instr) : decode (encode i) = .ok i := by cases i <;> rfl

theorem eq_encode_of_decodeCommand {c : Byte} {i : Instr} (h : decodeCommand c = .ok i) : .cmd8 c = encode i := by
  unfold decodeCommand at h
  split at h <;> cases h <;> exact congrArg Encoded.cmd8 (BitVec.eq_of_toNat_eq ‹_›)

theorem eq_encode_of_decodeLabel {l : BitVec 4} {i : Instr} (h : decodeLabel l = .ok i) : .internal4 l = encode i := by
  unfold decodeLabel at h
  split at h <;> cases h <;> exact congrArg Encoded.internal4 (BitVec.eq_of_toNat_eq ‹_›)

/-- Settles O1: a byte or a label that decodes is the one of its table row, and every encoding decodes. -/
theorem decodeAcceptsExactlyTheEncodings : Obligations.DecodeAcceptsExactlyTheEncodings := by
  refine fun w i => ⟨fun h => ?_, fun h => h ▸ decode_encode i⟩
  cases w with
  | cmd8 c => exact eq_encode_of_decodeCommand h
  | internal4 l => exact eq_encode_of_decodeLabel h

theorem decodeCommand_of_reserved {c : Byte} (h : c = 0x00 ∨ 0x0A ≤ c.toNat) :
    decodeCommand c = .error (.unknownCommand c) := by
  have hc : c.toNat = 0 ∨ 10 ≤ c.toNat := h.imp_left (congrArg BitVec.toNat)
  unfold decodeCommand
  split
  case h_10 => rfl
  all_goals omega

/-- Settles O2: the byte decodes to no command, and `raise` after the prologue is `failed`. -/
theorem reservedCodesEndInUnknownCommand : Obligations.ReservedCodesEndInUnknownCommand := by
  intro s c h
  have hd := decodeCommand_of_reserved h
  refine ⟨hd, ?_⟩
  rw [issueCommand, hd, unknownCommand, raise_prologue_eq_failed]

/-- Settles O3: the words are encodings. -/
theorem writtenOutWordsDecode : Obligations.WrittenOutWordsDecode :=
  ⟨decode_encode .keyexp, decode_encode .encblk, decode_encode .cmacvfy, decode_encode .ccmdec, decode_encode .clear,
    decode_encode .subbytes, decode_encode .enccore, decode_encode .tagcmp⟩

end Sys2Proof.Machine
end

section
/-! PROOFS. The data-block formats of CCM keep what they encode (00_scope.md R10, 30_encoding.md R84 to R89). -/

namespace Sys2Proof.Machine

/-! ### Big-endian integers (R10) -/

@[simp] theorem beBytes_length (k n : Nat) : (beBytes k n).length = k := by simp [beBytes]

/-- The last byte of an encoding is the number modulo 256, the bytes before it encode the quotient. -/
theorem beBytes_succ (k n : Nat) : beBytes (k + 1) n = beBytes k (n / 256) ++ [BitVec.ofNat 8 n] := by
  have hbyte : ∀ j < k, n / 256 ^ (k - j) = n / 256 / 256 ^ (k - 1 - j) := by
    intro j hj
    rw [Nat.div_div_eq_div_mul, ← Nat.pow_succ', show k - j = (k - 1 - j).succ by omega]
  simp +contextual [beBytes, List.range_succ, hbyte]

theorem intOf_beBytes (k n : Nat) : intOf (beBytes k n) = n % 256 ^ k := by
  induction k generalizing n with
  | zero => simp [beBytes, intOf, Nat.mod_one]
  | succ k ih =>
    have hlast : ∀ (bs : List Byte) (b : Byte), intOf (bs ++ [b]) = 256 * intOf bs + b.toNat := by simp [intOf]
    rw [beBytes_succ, hlast, ih, Nat.pow_succ', Nat.mod_mul, BitVec.toNat_ofNat, Nat.add_comm]

theorem intOf_beBytes_of_lt {k n : Nat} (h : n < 256 ^ k) : intOf (beBytes k n) = n := by
  rw [intOf_beBytes, Nat.mod_eq_of_lt h]

/-! ### The length header of the associated data (R86) -/

/-- The length that the header at the front of a stream states, read by the three forms of R86; 0 where there is none. -/
def statedAadLength (bs : List Byte) : Nat :=
  if intOf (bs.take 2) < 65280 then intOf (bs.take 2)
  else if bs.take 2 = [0xFF, 0xFE] then intOf ((bs.drop 2).take 4)
  else intOf ((bs.drop 2).take 8)

theorem statedAadLength_fffe (bs : List Byte) : statedAadLength (0xFF :: 0xFE :: bs) = intOf (bs.take 4) := by
  simp [statedAadLength, intOf]

theorem statedAadLength_ffff (bs : List Byte) : statedAadLength (0xFF :: 0xFF :: bs) = intOf (bs.take 8) := by
  simp [statedAadLength, intOf]

theorem intOf_take_beBytes_append {k n : Nat} (h : n < 256 ^ k) (bs : List Byte) :
    intOf ((beBytes k n ++ bs).take k) = n := by
  rw [List.take_left' (beBytes_length k n), intOf_beBytes_of_lt h]

/-- A header states its length, whatever follows it. -/
theorem statedAadLength_aadHeader_append {a : Nat} (h0 : a ≠ 0) (ha : a < 2 ^ 64) (bs : List Byte) :
    statedAadLength (aadHeader a ++ bs) = a := by
  unfold aadHeader
  rw [if_neg h0]
  split
  case isTrue h16 =>
    rw [statedAadLength, be16, intOf_take_beBytes_append (by omega), if_pos h16]
  case isFalse =>
    split
    case isTrue h32 =>
      rw [List.cons_append, List.cons_append, statedAadLength_fffe, be32, intOf_take_beBytes_append (by omega)]
    case isFalse =>
      rw [List.cons_append, List.cons_append, statedAadLength_ffff, be64, intOf_take_beBytes_append (by omega)]

theorem statedAadLength_fmtA {aad : List Byte} (h : aad.length < 2 ^ 64) : statedAadLength (fmtA aad) = aad.length := by
  unfold fmtA
  split
  case isTrue h0 => rw [h0]; rfl
  case isFalse h0 =>
    rw [List.append_assoc]
    exact statedAadLength_aadHeader_append (mt List.length_eq_zero_iff.1 h0) h _

/-- Settles O46: the stream states the length of its data, so equal streams have equal headers, and after them equal data. -/
theorem formattedAadIsUnambiguous : Obligations.FormattedAadIsUnambiguous := by
  intro a b ha hb h
  have hlen : a.length = b.length := by rw [← statedAadLength_fmtA ha, h, statedAadLength_fmtA hb]
  have hnil : b = [] ↔ a = [] := by rw [← List.length_eq_zero_iff, ← hlen, List.length_eq_zero_iff]
  by_cases ha0 : a = []
  · rw [ha0, hnil.2 ha0]
  · simp only [fmtA, hnil, if_neg ha0, List.append_assoc, hlen] at h
    exact (List.append_inj (List.append_cancel_left h) hlen).1

/-! ### The flags byte (R85) -/

theorem b0Flags_of_pos {a : Nat} (ha : 0 < a) (m : Nat) : b0Flags a m = b0Flags 1 m := by simp [b0Flags, ha]

/-- Settles O47: the byte asks of the length only whether it is 0, and there are seven legal tag lengths. -/
theorem flagsByteOfB0 : Obligations.FlagsByteOfB0 := by
  intro a m hm
  by_cases ha : 0 < a
  · simp only [b0Flags_of_pos ha, ha]
    revert m
    decide
  · obtain rfl : a = 0 := by omega
    revert m
    decide

/-! ### B0 and the counter blocks (R84, R89) -/

theorem blockOf_getElem {bs : List Byte} {k : Nat} (hk : k < 16) (h : k < bs.length) : (blockOf bs)[k] = bs[k] := by
  simp [blockOf, h]

theorem eq_of_blockOf_eq {x y : List Byte} (hx : x.length = 16) (hy : y.length = 16)
    (h : blockOf x = blockOf y) : x = y := by
  refine List.ext_getElem (hx.trans hy.symm) fun k hkx hky => ?_
  have hk : k < 16 := hx ▸ hkx
  rw [← blockOf_getElem hk hkx, ← blockOf_getElem hk hky, h]

/-- The flags byte of R84 is never the first byte 0x01 of a counter block. -/
theorem b0Flags_ne_one {a m : Nat} (hm : m ∈ [4, 6, 8, 10, 12, 14, 16]) : b0Flags a m ≠ 0x01 := by
  have hm4 : 4 ≤ m := by revert m; decide
  intro h
  have hval := (flagsByteOfB0 a m hm).1
  rw [h, show (0x01 : Byte).toNat = 1 from rfl] at hval
  omega

/-- Settles O48: both kinds of block give back the 16 bytes they are made of, of which the last two encode the counter and
the first is the flags byte. -/
theorem counterBlocksAreDistinct : Obligations.CounterBlocksAreDistinct := by
  have hlen : ∀ (f : Byte) (nonce : Nonce) (n : Nat), (f :: (nonce.toList ++ be16 n)).length = 16 := by simp [be16]
  refine ⟨fun nonce i j hi hj h => ?_, fun n n' m a p i hm h => ?_, fun d hd => ?_⟩
  · have hbytes := eq_of_blockOf_eq (hlen _ _ _) (hlen _ _ _) h
    have hctr : be16 i = be16 j := List.append_cancel_left (List.cons.inj hbytes).2
    rw [← intOf_beBytes_of_lt (k := 2) hi, ← intOf_beBytes_of_lt (k := 2) hj]
    exact congrArg intOf hctr
  · have hbytes := eq_of_blockOf_eq (hlen _ _ _) (hlen _ _ _) h
    exact b0Flags_ne_one hm (List.cons.inj hbytes).1
  · unfold dataBlockCount ceil16
    omega

end Sys2Proof.Machine
end

section
/-! PROOFS. Key expansion: KEYEXP, the schedule by words and by bytes, KSWORD run alone (40_key_expansion.md R104 to R108), and which
commands keep the context (R107). -/

namespace Sys2Proof.Machine

/-! ### KEYEXP (R105, R106) -/

/-- The one check of KEYEXP (R106). -/
theorem firstError_keyexp (s : State) : firstError .keyexp s = if s.klen = 16 then none else some .invalidKeySize := by
  by_cases h : s.klen = 16 <;> simp [firstError, checks, firstFailing, h]

theorem exec_keyexp_of_klen {s : State} (h : s.klen = 16) :
    exec .keyexp s = .next (constructed s zeroBlock zeroBlock zeroNonce 0 false false) := by
  rw [exec_eq_next_commandEnd rfl, commandEnd_of_no_error (by rw [firstError_keyexp, if_pos h]), completed]

/-- Settles O18: the only check is that of KLEN, and the end after it is the construction without subkeys and binding. -/
theorem keyexpBuildsTheSchedule : Obligations.KeyexpBuildsTheSchedule := by
  refine fun s => ⟨exec_keyexp_of_klen, fun h => ?_⟩
  rw [exec_eq_next_commandEnd rfl, commandEnd_of_error (by rw [firstError_keyexp, if_neg h])]

/-- Words 0 to 3 of a schedule are the key's (R105). -/
theorem keyWord_keySchedule_of_lt (key : Block) {i : Nat} (h : i < 4) : keyWord (keySchedule key) i = column key i := by
  rw [keyWord_keySchedule key i (by omega), Nat.div_eq_of_lt h, roundKeyOf]

/-- Settles O19: RK ends as the schedule of KEYIN, whose words the laws of the schedule give. -/
theorem scheduleWordsFollowTheRecurrence : Obligations.ScheduleWordsFollowTheRecurrence := by
  intro s t hk ht
  have hrk : t.rk = keySchedule s.keyin := by
    rw [exec_keyexp_of_klen hk] at ht
    rw [← Host.Outcome.next.inj ht]
    rfl
  rw [hrk]
  exact ⟨roundKey_keySchedule_zero _, fun _ => keyWord_keySchedule_of_lt _, keySchedule_word _⟩

/-! ### The flat byte array (R108) -/

/-- Byte `k` of the flat array is byte `k % 4` of word `k / 4`. -/
theorem flatByte_eq_keyWord (rk : RoundKeys) (k : Nat) :
    flatByte rk k = (keyWord rk (k / 4))[k % 4]'(Nat.mod_lt k (by decide)) := by
  have hword : k / 4 / 4 = k / 16 := Nat.div_div_eq_div_mul k 4 4
  have hbyte : 4 * (k / 4 % 4) + k % 4 = k % 16 := by omega
  simp only [flatByte, keyWord, Vector.getElem_ofFn, hword, hbyte]

/-- Byte `c` of word `i` stands at place `4i + c`. -/
theorem keyWord_getElem (rk : RoundKeys) (i : Nat) {c : Nat} (hc : c < 4) : (keyWord rk i)[c] = flatByte rk (4 * i + c) := by
  have hi : (4 * i + c) / 4 = i := by omega
  have hb : (4 * i + c) % 4 = c := by omega
  simp only [flatByte_eq_keyWord, hi, hb]

theorem nextWord_getElem_of_ne {i : Nat} (hi : i % 4 ≠ 0) (prev back : KeyWord) {c : Nat} (hc : c < 4) :
    (nextWord i prev back)[c] = back[c] ^^^ prev[c] := by
  simp [nextWord, xorWord, hi]

theorem nextWord_getElem_of_eq {i : Nat} (hi : i % 4 = 0) (prev back : KeyWord) {c : Nat} (hc : c < 4) :
    (nextWord i prev back)[c] =
      back[c] ^^^ sbox (prev[(c + 1) % 4]'(Nat.mod_lt _ (by decide))) ^^^ (if c = 0 then rcon (i / 4) else 0) := by
  by_cases h0 : c = 0 <;> simp [nextWord, xorWord, xorFirst, subWord, rotWord, hi, h0, BitVec.xor_assoc]

/-- From byte 16 on, a byte of the flat array is that of the word KSWORD makes (R104). -/
theorem flatByte_keySchedule (key : Block) {k : Nat} (h16 : 16 ≤ k) (hk : k < 176) :
    flatByte (keySchedule key) k =
      (nextWord (k / 4) (keyWord (keySchedule key) (k / 4 - 1)) (keyWord (keySchedule key) (k / 4 - 4)))[k % 4]'(
        Nat.mod_lt k (by decide)) := by
  rw [flatByte_eq_keyWord]
  simp only [keySchedule_word key (k / 4) (by omega) (by omega)]

/-- Settles O20: the word recurrence read byte by byte; the word four back is 16 bytes back, the word before 4 bytes back. -/
theorem scheduleOnTheFlatByteArray : Obligations.ScheduleOnTheFlatByteArray := by
  intro key k
  dsimp only
  have hback : 16 ≤ k → 4 * (k / 4 - 4) + k % 4 = k - 16 := by omega
  have hprev : 16 ≤ k → 4 * (k / 4 - 1) + k % 4 = k - 4 := by omega
  refine ⟨fun h => ?_, fun h16 hk hc => ?_, fun h16 hk hc => ?_⟩
  · simp only [flatByte, Nat.div_eq_of_lt h, Nat.mod_eq_of_lt h, roundKey_keySchedule_zero]
  · rw [flatByte_keySchedule key h16 hk, nextWord_getElem_of_ne hc, keyWord_getElem, keyWord_getElem, hback h16, hprev h16]
  · rw [flatByte_keySchedule key h16 hk, nextWord_getElem_of_eq hc, keyWord_getElem, keyWord_getElem, hback h16]

/-! ### The operations run alone on an index (R104, R126) -/

theorem exec_ksword_of_index {s : State} (h : 4 ≤ s.regWI.toNat ∧ s.regWI.toNat ≤ 43) :
    exec .ksword s = .next (scheduleWord s) :=
  if_pos h

/-- Settles O21: the step of the schedule stores one word and T, and reading the words back tells it from the others. -/
theorem kswordComputesOneWord : Obligations.KswordComputesOneWord := by
  intro s h4 h43 i prev
  have hi : i < 44 := Nat.lt_succ_of_le h43
  refine ⟨_, _, by rw [exec_ksword_of_index ⟨h4, h43⟩, scheduleWord_eq], rfl, ?_, fun j _ hj => ?_⟩
  · rw [keyWord_setKeyWord _ _ _ _ hi, if_pos rfl]
    rfl
  · rw [keyWord_setKeyWord _ _ _ _ hi, if_neg hj]

/-- Settles O22: both operations test their index first. -/
theorem undefinedIndicesStop : Obligations.UndefinedIndicesStop :=
  fun _ => ⟨fun h => if_neg (by omega), fun h => if_neg (Nat.not_le.2 h)⟩

/-! ### The commands that keep the context (R107, R212) -/

/-- RK, K1, K2, NONCE and MLEN: what a construction replaces as a whole (R41, R107). -/
def keyContext (s : State) : RoundKeys × Block × Block × Nonce × BitVec 5 := (s.rk, s.k1, s.k2, s.nonce, s.mlen)

theorem keyContext_withResults (s : State) (ok : Bool) (dout : Memory) (tagout : Block) (olen : BitVec 64) (tolen : BitVec 8) :
    keyContext (s.withResults ok dout tagout olen tolen) = keyContext s := rfl

theorem keyContext_failed (e : ErrCode) (s : State) : keyContext (failed e s) = keyContext s := rfl

/-- A data command that completes stores results only; the other commands complete without error. -/
theorem keyContext_completed {i : Instr} (h : i.hostVisible = true) (s : State)
    (hd : i ∈ [.encblk, .cmacgen, .cmacvfy, .ccmenc, .ccmdec] ∨ (completed i s).err ≠ .none) :
    keyContext (completed i s) = keyContext s := by
  cases i, h using commandCases with
  | encblk => exact keyContext_withResults ..
  | cmacgen => exact keyContext_withResults ..
  | cmacvfy => exact keyContext_withResults ..
  | ccmenc => exact keyContext_withResults ..
  | ccmdec =>
    rw [completed]
    split <;> exact keyContext_withResults ..
  | _ => exact absurd rfl (hd.resolve_left (by decide))

/-- Settles O54: an error keeps the context, and so does every completed command in question. -/
theorem dataCommandsLeaveTheContext : Obligations.DataCommandsLeaveTheContext := by
  intro i s t h ht hd
  have hctx : keyContext t = keyContext s := by
    rw [eq_commandEnd_of_exec h ht] at hd ⊢
    obtain ⟨e, -, hend⟩ | ⟨-, hend⟩ := commandEnd_cases i s
    · rw [hend, keyContext_failed]
    · rw [hend] at hd ⊢
      exact keyContext_completed h s hd
  simpa only [keyContext, Prod.mk.injEq] using hctx

end Sys2Proof.Machine
end

section
/-! PROOFS. The block cipher: SBOX against its equivalent definition, what each stage does to S, `E` as a bijection and as the pipeline
computes it, and ENCBLK (41_block_cipher.md R121 to R130). -/

namespace Sys2Proof.Machine

/-! ### SBOX (R121) -/

/-- The affine map of R121 undone: the inverse of its linear part is `rotl(y,1) ^ rotl(y,3) ^ rotl(y,6)`, which takes 0x63 to 0x05. -/
def sboxAffineInverse (y : Byte) : Byte := y.rotateLeft 1 ^^^ y.rotateLeft 3 ^^^ y.rotateLeft 6 ^^^ 0x05

theorem sboxAffine_sboxAffineInverse : ∀ y : Byte, sboxAffine (sboxAffineInverse y) = y := by decide +kernel

theorem sboxAffineInverse_sboxAffine : ∀ x : Byte, sboxAffineInverse (sboxAffine x) = x := by decide +kernel

/-- The inverse in GF(2^8), 0 for 0, as the printed table gives it: the byte whose affine image the entry is. -/
def tableInverse (a : Byte) : Byte := sboxAffineInverse (sbox a)

theorem sboxAffine_tableInverse (a : Byte) : sboxAffine (tableInverse a) = sbox a := sboxAffine_sboxAffineInverse _

theorem gmul_tableInverse : ∀ a : Byte, a ≠ 0 → gmul a (tableInverse a) = 1 := by decide +kernel

theorem tableInverse_tableInverse : ∀ a : Byte, tableInverse (tableInverse a) = a := by decide +kernel

theorem sbox_ne_self : ∀ a : Byte, sbox a ≠ a := by decide +kernel

/-- The table is the involution `tableInverse` followed by the invertible affine map. -/
theorem sbox_bijective : Function.Bijective sbox := by
  have haffine : Function.Bijective sboxAffine :=
    Function.bijective_iff_has_inverse.2 ⟨sboxAffineInverse, sboxAffineInverse_sboxAffine, sboxAffine_sboxAffineInverse⟩
  have hinverse : Function.Involutive tableInverse := tableInverse_tableInverse
  rw [← funext sboxAffine_tableInverse]
  exact haffine.comp hinverse.bijective

/-- Settles O29: the inverse of a byte is read off the table, entry by entry. -/
theorem sboxIsTheAffineInverse : Obligations.SboxIsTheAffineInverse :=
  ⟨fun a h => ⟨tableInverse a, gmul_tableInverse a h, (sboxAffine_tableInverse a).symm⟩, by decide +kernel, sbox_bijective,
    sbox_ne_self⟩

/-! ### The bytes of a stage (R122 to R126) -/

@[simp] theorem subBytes_getElem (s : Block) {k : Nat} (h : k < 16) : (subBytes s)[k] = sbox s[k] := by
  rw [subBytes, Vector.getElem_ofFn]; rfl

@[simp] theorem shiftRows_getElem (s : Block) {k : Nat} (h : k < 16) :
    (shiftRows s)[k] = s[k % 4 + 4 * ((k / 4 + k % 4) % 4)] := by
  rw [shiftRows, Vector.getElem_ofFn]

@[simp] theorem xorBlock_getElem (a b : Block) {k : Nat} (h : k < 16) : (xorBlock a b)[k] = a[k] ^^^ b[k] := by
  rw [xorBlock, Vector.getElem_ofFn]; rfl

theorem mixColumns_getElem (s : Block) {c j : Nat} (hc : c < 4) (hj : j < 4) :
    (mixColumns s)[4 * c + j] = mixByte s[4 * c] s[4 * c + 1] s[4 * c + 2] s[4 * c + 3] j := by
  have hcol : (4 * c + j) / 4 = c := by omega
  have hrow : (4 * c + j) % 4 = j := by omega
  simp only [mixColumns, Vector.getElem_ofFn, hcol, hrow]

theorem roundKey_of_lt (rk : RoundKeys) {n : Nat} (h : n < 11) : roundKey rk n = rk[n] := by
  simp [roundKey, h]

/-- Settles O23: byte `r + 4c` stands in row `r` of column `c`. -/
theorem subBytesAndShiftRowsActOnS : Obligations.SubBytesAndShiftRowsActOnS := by
  refine fun s => ⟨⟨_, rfl, fun k => subBytes_getElem s.regS⟩, _, rfl, fun r c hr hc => ?_⟩
  have hrow : (r + 4 * c) % 4 = r := by omega
  have hcol : (r + 4 * c) / 4 = c := by omega
  simp only [shiftRows_getElem, hrow, hcol]

/-- Settles O24: the circulant at the four rows of a column. -/
theorem mixColumnsActsOnS : Obligations.MixColumnsActsOnS := by
  intro s
  refine ⟨_, rfl, fun c hc => ⟨?_, ?_, ?_, ?_⟩⟩
  · exact mixColumns_getElem s.regS hc (by decide : 0 < 4)
  · exact mixColumns_getElem s.regS hc (by decide : 1 < 4)
  · exact mixColumns_getElem s.regS hc (by decide : 2 < 4)
  · exact mixColumns_getElem s.regS hc (by decide : 3 < 4)

/-- Settles O25: the round number passes the check and names a round key of the store. -/
theorem addRoundKeyActsOnS : Obligations.AddRoundKeyActsOnS := by
  intro s n hn hrnd
  refine ⟨_, if_pos (hrnd ▸ Nat.le_of_lt_succ hn), fun k hk => ?_⟩
  rw [xorBlock_getElem, hrnd, roundKey_of_lt s.rk hn]

/-! ### The stages are bijections (R127) -/

theorem map_leftInverse {n : Nat} {f g : Byte → Byte} (h : Function.LeftInverse g f) :
    Function.LeftInverse (Vector.map g : Bytes n → Bytes n) (Vector.map f) := by
  intro s
  rw [Vector.map_map, h.id]
  exact Vector.map_id s

theorem subBytes_eq_map : subBytes = Vector.map sbox := by
  funext s
  ext1 k hk
  rw [subBytes_getElem, Vector.getElem_map]

theorem subBytes_bijective : Function.Bijective subBytes := by
  obtain ⟨g, hl, hr⟩ := Function.bijective_iff_has_inverse.1 sbox_bijective
  rw [subBytes_eq_map]
  exact Function.bijective_iff_has_inverse.2 ⟨Vector.map g, map_leftInverse hl, map_leftInverse hr⟩

theorem xorBlock_xorBlock_cancel (s key : Block) : xorBlock (xorBlock s key) key = s := by
  ext1 k hk; simp

theorem xorBlock_bijective (key : Block) : Function.Bijective fun s => xorBlock s key :=
  Function.Involutive.bijective fun s => xorBlock_xorBlock_cancel s key

/-- ShiftRows and the column mix have order 4, so their squares are involutions. -/
theorem bijective_of_involutive_comp_self {α : Type} {f : α → α} (h : Function.Involutive (f ∘ f)) : Function.Bijective f :=
  ⟨h.injective.of_comp, h.surjective.of_comp⟩

/-- ShiftRows twice rotates row `r` by `2r` columns, and twice that is a whole turn. -/
theorem shiftRows_shiftRows_getElem (s : Block) {k : Nat} (h : k < 16) :
    (shiftRows (shiftRows s))[k] = s[k % 4 + 4 * ((k / 4 + 2 * (k % 4)) % 4)] := by
  simp only [shiftRows_getElem]
  congr 1
  omega

theorem shiftRows_bijective : Function.Bijective shiftRows := by
  refine bijective_of_involutive_comp_self fun s => ?_
  ext1 k hk
  simp only [Function.comp_apply, shiftRows_shiftRows_getElem]
  congr 1
  omega

/-! ### The column mix has order 4 (R125) -/

theorem byte_xor_left_comm (a b c : Byte) : a ^^^ (b ^^^ c) = b ^^^ (a ^^^ c) := by ac_rfl

theorem xtime_xor (a b : Byte) : xtime (a ^^^ b) = xtime a ^^^ xtime b := by
  simp only [xtime, BitVec.shiftLeft_xor_distrib, BitVec.getLsbD_xor]
  cases a.getLsbD 7 <;> cases b.getLsbD 7 <;> simp [BitVec.xor_assoc, BitVec.xor_comm, byte_xor_left_comm]

/-- The circulant of R125 on one column. -/
def mixColumn (w : KeyWord) : KeyWord := Vector.ofFn fun j => mixByte w[0] w[1] w[2] w[3] j

theorem column_mixColumns (s : Block) {c : Nat} (hc : c < 4) : column (mixColumns s) c = mixColumn (column s c) := by
  ext1 j hj
  simp only [Nat.mod_eq_of_lt hc, mixColumns_getElem s hc hj, mixColumn, Vector.getElem_ofFn, column, Nat.add_zero]

/-- Row `j` of the circulant is row 0 on the column rotated by `j`. -/
theorem mixColumn_getElem (w : KeyWord) {j : Nat} (hj : j < 4) :
    (mixColumn w)[j] = mixByte w[j] w[(j + 1) % 4] w[(j + 2) % 4] w[(j + 3) % 4] 0 := by
  rw [mixColumn, Vector.getElem_ofFn]
  match j, hj with
  | 0, _ => rfl
  | 1, _ | 2, _ | 3, _ => simp only [mixByte, Nat.reduceAdd, Nat.reduceMod]; ac_rfl

/-- Each byte of a column with 4 times its sum with the byte two rows on. -/
def mixTwice (w : KeyWord) : KeyWord :=
  Vector.ofFn fun j => w[j] ^^^ xtime (xtime (w[j] ^^^ w[(j.val + 2) % 4]'(Nat.mod_lt _ (by decide))))

theorem mixTwice_getElem (w : KeyWord) {j : Nat} (hj : j < 4) :
    (mixTwice w)[j] = w[j] ^^^ xtime (xtime (w[j] ^^^ w[(j + 2) % 4])) := by
  rw [mixTwice, Vector.getElem_ofFn]; rfl

/-- Row 0 of the square of the circulant (2, 3, 1, 1) is (5, 0, 4, 0). -/
theorem mixByte_zero_comp (a b c d : Byte) :
    mixByte (mixByte a b c d 0) (mixByte b c d a 0) (mixByte c d a b 0) (mixByte d a b c 0) 0 = a ^^^ xtime (xtime (a ^^^ c)) := by
  simp [mixByte, mul3, xtime_xor, BitVec.xor_assoc, BitVec.xor_comm, byte_xor_left_comm]

theorem mixColumn_mixColumn (w : KeyWord) : mixColumn (mixColumn w) = mixTwice w := by
  ext1 j hj
  have hj4 : (j + 4) % 4 = j := by omega
  have hj5 : (j + 5) % 4 = (j + 1) % 4 := by omega
  have hj6 : (j + 6) % 4 = (j + 2) % 4 := by omega
  simp only [mixColumn_getElem, mixTwice_getElem, Nat.mod_add_mod, Nat.add_assoc, Nat.reduceAdd, hj4, hj5, hj6, mixByte_zero_comp]

/-- `mixTwice` keeps the sum of a byte with the byte two rows on, so what it adds the first time cancels the second time. -/
theorem mixTwice_mixTwice (w : KeyWord) : mixTwice (mixTwice w) = w := by
  have hsum : ∀ x y z : Byte, (x ^^^ z) ^^^ (y ^^^ z) = x ^^^ y := fun x y z => by simp [BitVec.xor_assoc]
  ext1 j hj
  have hback : (j + 2 + 2) % 4 = j := by omega
  have hpartner : (mixTwice w)[(j + 2) % 4] = w[(j + 2) % 4] ^^^ xtime (xtime (w[j] ^^^ w[(j + 2) % 4])) := by
    rw [mixTwice_getElem w (Nat.mod_lt _ (by decide))]
    simp only [Nat.mod_add_mod, hback, BitVec.xor_comm w[(j + 2) % 4] w[j]]
  rw [mixTwice_getElem, hpartner, mixTwice_getElem _ hj, hsum, BitVec.xor_assoc, BitVec.xor_self, BitVec.xor_zero]

/-- A block is its four columns. -/
theorem block_ext_column {a b : Block} (h : ∀ c < 4, column a c = column b c) : a = b := by
  ext1 k hk
  have hbyte : ∀ s : Block, s[k] = (column s (k / 4))[k % 4] := fun s => by
    have hplace : 4 * (k / 4 % 4) + k % 4 = k := by omega
    simp only [column, Vector.getElem_ofFn, hplace]
  simp only [hbyte, h (k / 4) (by omega)]

theorem mixColumns_bijective : Function.Bijective mixColumns := by
  refine bijective_of_involutive_comp_self fun s => block_ext_column fun c hc => ?_
  simp only [Function.comp_apply, column_mixColumns _ hc, mixColumn_mixColumn, mixTwice_mixTwice]

/-! ### E by rounds and by the pipeline (R127, R128) -/

/-- The nine full rounds. -/
def fullRounds (rk : RoundKeys) (s : Block) : Block := (List.range' 1 9).foldl (fun s r => cipherRound (roundKey rk r) s) s

/-- The final round, without the column mix. -/
def lastRound (k s : Block) : Block := xorBlock (shiftRows (subBytes s)) k

theorem encryptBlock_eq (rk : RoundKeys) (b : Block) :
    encryptBlock rk b = lastRound (roundKey rk 10) (fullRounds rk (xorBlock b (roundKey rk 0))) := rfl

theorem lastRound_bijective (k : Block) : Function.Bijective (lastRound k) :=
  (xorBlock_bijective k).comp (shiftRows_bijective.comp subBytes_bijective)

theorem cipherRound_bijective (k : Block) : Function.Bijective (cipherRound k) :=
  (xorBlock_bijective k).comp (mixColumns_bijective.comp (shiftRows_bijective.comp subBytes_bijective))

theorem foldl_bijective {α β : Type} {f : α → β → α} (hf : ∀ i, Function.Bijective fun a => f a i) :
    ∀ l : List β, Function.Bijective fun a => l.foldl f a
  | [] => Function.bijective_id
  | i :: l => (foldl_bijective hf l).comp (hf i)

theorem fullRounds_bijective (rk : RoundKeys) : Function.Bijective (fullRounds rk) :=
  foldl_bijective (fun r => cipherRound_bijective (roundKey rk r)) _

/-- Settles O28: E is a composition of rounds, each a bijection whatever its round key. -/
theorem encryptionIsABijection : Obligations.EncryptionIsABijection := by
  intro rk
  have hcomp : encryptBlock rk = lastRound (roundKey rk 10) ∘ fullRounds rk ∘ fun b => xorBlock b (roundKey rk 0) :=
    funext fun b => by simp only [Function.comp_apply, encryptBlock_eq]
  rw [hcomp]
  exact (lastRound_bijective _).comp ((fullRounds_bijective rk).comp (xorBlock_bijective _))

/-- With RND 0 every stage but the last is bypassed. -/
theorem pipelinePass_zero (rk : RoundKeys) (s : Block) : pipelinePass rk s 0 = xorBlock s (roundKey rk 0) := rfl

/-- With RND 1 to 9 every stage is enabled. -/
theorem pipelinePass_of_round (rk : RoundKeys) (s : Block) {n : Nat} (h1 : 1 ≤ n) (h9 : n ≤ 9) :
    pipelinePass rk s n = cipherRound (roundKey rk n) s := by
  simp [pipelinePass, cipherRound, h1, h9]

/-- With RND 10 the column mix is bypassed. -/
theorem pipelinePass_ten (rk : RoundKeys) (s : Block) : pipelinePass rk s 10 = lastRound (roundKey rk 10) s := rfl

theorem foldl_pipelinePass_rounds (rk : RoundKeys) (s : Block) :
    (List.range' 1 9).foldl (pipelinePass rk) s = fullRounds rk s := by
  refine List.foldl_ext _ _ _ fun b n hn => ?_
  rw [List.mem_range'_1] at hn
  exact pipelinePass_of_round rk b hn.1 (Nat.le_of_lt_succ hn.2)

theorem subBytes_shiftRows_comm (s : Block) : subBytes (shiftRows s) = shiftRows (subBytes s) := by
  ext1 k hk
  rw [subBytes_getElem, shiftRows_getElem, shiftRows_getElem, subBytes_getElem]

/-- Settles O27: the passes 0, 1 to 9 and 10 are the parts of E. -/
theorem pipelineViewComputesE : Obligations.PipelineViewComputesE := by
  refine ⟨fun rk b => ?_, subBytes_shiftRows_comm⟩
  have hpasses : List.range 11 = 0 :: (List.range' 1 9 ++ [10]) := by decide
  rw [hpasses, List.foldl_cons, List.foldl_append, foldl_pipelinePass_rounds, pipelinePass_zero, List.foldl_cons,
    pipelinePass_ten, List.foldl_nil, encryptBlock_eq]

/-- Settles O26 by the law of the round sequencer. -/
theorem enccoreComputesE : Obligations.EnccoreComputesE := fun s => congrArg Host.Outcome.next (encryptCore_eq s)

/-! ### ENCBLK (R129) -/

/-- The two checks of ENCBLK in their order. -/
theorem firstError_encblk (s : State) :
    firstError .encblk s =
      if s.kvalid then if s.dlen = 16 then none else some .invalidBlockSize else some .notConstructed := by
  by_cases h : s.dlen = 16 <;> cases hk : s.kvalid <;> simp [firstError, checks, firstFailing, h, hk]

/-- Settles O30: the end after the checks, or the error the first failing one reports. -/
theorem encblkEncryptsOneBlock : Obligations.EncblkEncryptsOneBlock := by
  intro s
  rw [exec_eq_next_commandEnd rfl]
  refine ⟨fun hk hd => ?_, fun hk => ?_, fun hk hd => ?_⟩
  · rw [commandEnd_of_no_error (by rw [firstError_encblk, if_pos hk, if_pos hd])]
    rfl
  · rw [commandEnd_of_error (by rw [firstError_encblk, hk, if_neg Bool.false_ne_true])]
  · rw [commandEnd_of_error (by rw [firstError_encblk, if_pos hk, if_neg hd])]

end Sys2Proof.Machine
end

section
/-! PROOFS. CMAC: DBL as arithmetic on the block's value, ABSORB and CTRBLK run alone, the comparator, and the three CMAC commands
(42_cmac.md R141 to R149). -/

namespace Sys2Proof.Machine

/-! ### The bits of a block's value (R10) -/

/-- Bit `i` of a big-endian value is bit `i % 8` of byte `i / 8`, counted from the last. -/
theorem intOf_reverse_testBit (bs : List Byte) (i : Nat) :
    (intOf bs.reverse).testBit i = (bs.getD (i / 8) 0).getLsbD (i % 8) := by
  induction bs generalizing i with
  | nil => simp [intOf]
  | cons b bs ih =>
    have hlast : intOf (b :: bs).reverse = 2 ^ 8 * intOf bs.reverse + b.toNat := by simp [intOf]
    rw [hlast, Nat.testBit_two_pow_mul_add _ b.isLt, ih, BitVec.testBit_toNat]
    split
    case isTrue h => rw [Nat.div_eq_of_lt h, Nat.mod_eq_of_lt h, List.getD_cons_zero]
    case isFalse h =>
      have hdiv : i / 8 = (i - 8) / 8 + 1 := by omega
      have hmod : i % 8 = (i - 8) % 8 := by omega
      rw [hdiv, hmod, List.getD_cons_succ]

theorem block_value_testBit (x : Block) {i : Nat} (h : i < 128) :
    (intOf x.toList).testBit i = x[15 - i / 8].getLsbD (i % 8) := by
  have hbyte : x.toList.reverse.getD (i / 8) 0 = x[15 - i / 8] := by
    rw [List.getD_eq_getElem _ _ (by simp; omega), List.getElem_reverse]
    simp
  rw [← x.toList.reverse_reverse, intOf_reverse_testBit, hbyte]

theorem block_value_testBit_of_ge (x : Block) {i : Nat} (h : 128 ≤ i) : (intOf x.toList).testBit i = false := by
  rw [← x.toList.reverse_reverse, intOf_reverse_testBit, List.getD_eq_default _ _ (by simp; omega),
    BitVec.ofNat_eq_ofNat, BitVec.getLsbD_zero]

theorem block_value_lt (x : Block) : intOf x.toList < 2 ^ 128 :=
  Nat.lt_pow_two_of_testBit _ fun _ => block_value_testBit_of_ge x

/-- The high bit of a block is bit 7 of its first byte. -/
theorem block_highBit_iff (x : Block) : x[0].getLsbD 7 = true ↔ 2 ^ 127 ≤ intOf x.toList := by
  have hbit : (intOf x.toList).testBit 127 = x[0].getLsbD 7 := block_value_testBit x (i := 127) (by decide)
  rw [← hbit]
  refine ⟨Nat.ge_two_pow_of_testBit, fun h => ?_⟩
  exact Nat.testBit_of_two_pow_le_and_two_pow_add_one_gt h (block_value_lt x)

/-! ### Doubling (R141) -/

theorem xorBlock_value (a b : Block) : intOf (xorBlock a b).toList = intOf a.toList ^^^ intOf b.toList := by
  refine Nat.eq_of_testBit_eq fun i => ?_
  rw [Nat.testBit_xor]
  by_cases h : i < 128
  · simp only [block_value_testBit _ h, xorBlock_getElem, BitVec.getLsbD_xor]
  · simp only [block_value_testBit_of_ge _ (Nat.le_of_not_lt h), Bool.xor_false]

/-- Bit 0 of a byte comes from the next byte, every other bit from the bit below it. -/
theorem leftShift_getElem_getLsbD (x : Block) {k j : Nat} (hk : k < 16) (hj : j < 8) :
    (leftShift x)[k].getLsbD j
      = if j = 0 then (if h : k < 15 then x[k + 1].getLsbD 7 else false) else x[k].getLsbD (j - 1) := by
  rw [leftShift, Vector.getElem_ofFn]
  cases j with
  | zero => by_cases hk15 : k < 15 <;> simp [hk15]
  | succ j =>
    have hbelow : j < 8 := Nat.lt_of_succ_lt hj
    have hgone : 8 ≤ 7 + (j + 1) := by omega
    by_cases hk15 : k < 15 <;> simp [hk15, hj, hbelow, hgone]

/-- Bit `i + 1` of the shifted value is bit `i`, within a byte and across two. -/
theorem leftShift_value (x : Block) : intOf (leftShift x).toList = 2 * intOf x.toList % 2 ^ 128 := by
  refine Nat.eq_of_testBit_eq fun i => ?_
  rw [Nat.testBit_mod_two_pow]
  by_cases hi : i < 128
  · rw [block_value_testBit _ hi, leftShift_getElem_getLsbD x (by omega) (by omega), decide_eq_true hi, Bool.true_and]
    cases i with
    | zero => simp
    | succ i =>
      rw [Nat.testBit_succ, Nat.mul_div_cancel_left _ (by decide), block_value_testBit x (Nat.lt_of_succ_lt hi)]
      split
      case isTrue h0 =>
        have hbyte : 15 - (i + 1) / 8 + 1 = 15 - i / 8 := by omega
        have hbit : i % 8 = 7 := by omega
        rw [dif_pos (by omega)]
        simp only [hbyte, hbit]
      case isFalse h0 =>
        have hbyte : (i + 1) / 8 = i / 8 := by omega
        have hbit : (i + 1) % 8 - 1 = i % 8 := by omega
        simp only [hbyte, hbit]
  · rw [block_value_testBit_of_ge _ (Nat.le_of_not_lt hi), decide_eq_false hi, Bool.false_and]

theorem blockRb_value : intOf blockRb.toList = 0x87 := by decide

theorem double_value (x : Block) :
    intOf (double x).toList = (2 * intOf x.toList % 2 ^ 128) ^^^ (if 2 ^ 127 ≤ intOf x.toList then 0x87 else 0) := by
  unfold double
  by_cases h : x[0].getLsbD 7 = true
  · rw [if_pos h, if_pos ((block_highBit_iff x).1 h), xorBlock_value, leftShift_value, blockRb_value]
  · rw [if_neg h, if_neg (mt (block_highBit_iff x).2 h), leftShift_value, Nat.xor_zero]

/-- Settles O31: the shift is doubling modulo 2^128, and the block's high bit says whether Rb is folded in. -/
theorem dblDoublesTheBlock : Obligations.DblDoublesTheBlock := ⟨fun _ => rfl, double_value⟩

/-! ### ABSORB and CTRBLK (R146, R181) -/

/-- Settles O32 by the laws of the two operations. -/
theorem absorbAndCtrblkComplete : Obligations.AbsorbAndCtrblkComplete := fun s =>
  ⟨congrArg Host.Outcome.next (absorbLB_eq s), congrArg Host.Outcome.next (keystreamBlock_eq s)⟩

/-! ### The comparator (R148) -/

/-- The accumulated differences are zero exactly when the supplied bytes begin with the expected ones. -/
theorem differences_eq_zero_iff {exp got : List Byte} (h : exp.length ≤ got.length) (acc : Byte) :
    (List.zipWith (fun e g => e ^^^ g) exp got).foldl (fun acc d => acc ||| d) acc = 0 ↔ acc = 0 ∧ exp <+: got := by
  induction exp generalizing got acc with
  | nil => simp
  | cons e exp ih =>
    cases got with
    | nil => simp at h
    | cons g got =>
      have hfirst : acc ||| (e ^^^ g) = 0 ↔ acc = 0 ∧ e = g :=
        BitVec.or_eq_zero_iff.trans (and_congr_right' BitVec.xor_eq_zero_iff)
      rw [List.zipWith_cons_cons, List.foldl_cons, ih (Nat.le_of_succ_le_succ h), List.cons_prefix_cons, hfirst, and_assoc]

theorem tagsMatch_iff {exp got : List Byte} (h : exp.length ≤ got.length) (n : Nat) :
    tagsMatch exp got n = true ↔ n = exp.length ∧ exp <+: got := by
  unfold tagsMatch
  by_cases hn : n = exp.length
  · rw [if_neg (not_not_intro hn), beq_iff_eq, differences_eq_zero_iff h, and_iff_right rfl, and_iff_right hn]
  · rw [if_pos hn, iff_false_intro Bool.false_ne_true, false_iff]
    exact fun ⟨hlen, _⟩ => hn hlen

/-- Settles O36: a prefix is a string that agrees with the longer one at each of its places. -/
theorem comparatorIsEquality : Obligations.ComparatorIsEquality := by
  intro exp got n h
  rw [tagsMatch_iff h, List.prefix_iff_getElem?]
  refine and_congr_right fun _ => forall₂_congr fun k hk => ?_
  rw [List.getElem?_eq_getElem hk]

theorem firstBytes_length {n : Nat} (h : n ≤ 16) (b : Block) : (firstBytes b n).length = n := by
  simp [firstBytes, h]

/-- The comparator on the first bytes of one block and the whole of another. -/
theorem tagsMatch_firstBytes_iff {n : Nat} (hn : n ≤ 16) (exp got : Block) (m : Nat) :
    tagsMatch (firstBytes exp n) got.toList m = true ↔ m = n ∧ ∀ k (h : k < 16), k < n → got[k] = exp[k] := by
  have hlen := firstBytes_length hn exp
  rw [comparatorIsEquality _ _ _ (by simpa [hlen] using hn), hlen]
  refine and_congr_right fun _ => ⟨fun h k hk hkn => ?_, fun h k hkn => ?_⟩
  · simpa [firstBytes, hk, hkn] using h k hkn
  · have hk : k < 16 := hkn.trans_le hn
    simpa [firstBytes, hk, hkn] using h k hk hkn

/-- A whole tag is accepted exactly when it has 16 bytes and is the expected one (R149). -/
theorem tagsMatch_sixteen_eq_decide (exp got : Block) (m : BitVec 32) :
    tagsMatch (firstBytes exp 16) got.toList m.toNat = decide (m = 16 ∧ got = exp) := by
  have hm : m.toNat = 16 ↔ m = 16 := by bv_omega
  have hbytes : (∀ k (h : k < 16), k < 16 → got[k] = exp[k]) ↔ got = exp :=
    ⟨fun h => Vector.ext fun k hk => h k hk hk, fun h k hk _ => h ▸ rfl⟩
  rw [Bool.eq_iff_iff, decide_eq_true_iff, tagsMatch_firstBytes_iff (Nat.le_refl 16), hm, hbytes]

/-- Settles O37: TAGCMP stores the comparator's answer in OK. -/
theorem tagcmpSetsOkAlone : Obligations.TagcmpSetsOkAlone := fun s h =>
  ⟨_, rfl, tagsMatch_firstBytes_iff h s.regLB s.tagin s.tlen.toNat⟩

/-! ### CMACINIT (R142, R143) -/

theorem firstError_cmacinit (s : State) : firstError .cmacinit s = if s.klen = 16 then none else some .invalidKeySize :=
  firstError_keyexp s

/-- Settles O33: the one check is that of KLEN, and the end after it holds the subkeys of the schedule. -/
theorem cmacinitDerivesTheSubkeys : Obligations.CmacinitDerivesTheSubkeys := by
  intro s
  rw [exec_eq_next_commandEnd rfl]
  refine ⟨fun h => ?_, fun h => ?_⟩
  · rw [commandEnd_of_no_error (by rw [firstError_cmacinit, if_pos h])]
    rfl
  · rw [commandEnd_of_error (by rw [firstError_cmacinit, if_neg h])]

/-! ### CMACGEN and CMACVFY (R147, R149) -/

/-- The two checks of CMACGEN in their order. CMACVFY makes the same ones. -/
theorem firstError_cmacgen (s : State) :
    firstError .cmacgen s =
      if s.skvalid then if s.dlen.toNat ≤ Config.dbufCap then none else some .bufferCapacity else some .notConstructed := by
  by_cases h : s.dlen.toNat ≤ Config.dbufCap <;> cases hk : s.skvalid <;> simp [firstError, checks, firstFailing, h, hk]

/-- How a command with the checks of CMACGEN ends. -/
theorem exec_of_cmacChecks {i : Instr} (hi : i.hostVisible = true) {s : State} (hc : firstError i s = firstError .cmacgen s) :
    (s.skvalid = true → s.dlen.toNat ≤ Config.dbufCap → exec i s = .next (completed i s))
      ∧ (s.skvalid = false → exec i s = .next (failed .notConstructed s))
      ∧ (s.skvalid = true → Config.dbufCap < s.dlen.toNat → exec i s = .next (failed .bufferCapacity s)) := by
  rw [firstError_cmacgen] at hc
  rw [exec_eq_next_commandEnd hi]
  refine ⟨fun hsk hd => ?_, fun hsk => ?_, fun hsk hd => ?_⟩
  · rw [commandEnd_of_no_error (by rw [hc, if_pos hsk, if_pos hd])]
  · rw [commandEnd_of_error (by rw [hc, hsk, if_neg Bool.false_ne_true])]
  · rw [commandEnd_of_error (by rw [hc, if_pos hsk, if_neg (Nat.not_le_of_lt hd)])]

/-- Settles O34: a completed CMACGEN stores the tag and its length. -/
theorem cmacgenTagsTheMessage : Obligations.CmacgenTagsTheMessage := fun _ => exec_of_cmacChecks rfl rfl

/-- The end of CMACVFY: the comparator's answer on the whole tag. -/
theorem completed_cmacvfy (s : State) :
    completed .cmacvfy s =
      { succeeded s with ok := decide (s.tlen = 16 ∧ s.tagin = cmacTag s.rk s.k1 s.k2 (dataOperand s)) } := by
  rw [completed, tagsMatch_sixteen_eq_decide]
  rfl

/-- Settles O35: the checks of CMACGEN, then the verdict. -/
theorem cmacvfyGivesTheVerdict : Obligations.CmacvfyGivesTheVerdict := by
  intro s
  have hends := exec_of_cmacChecks (i := .cmacvfy) rfl (s := s) rfl
  rwa [completed_cmacvfy] at hends

/-- Settles O38: CMACGEN leaves the context and the message, so CMACVFY computes the tag that stands in TAGOUT. -/
theorem generatedTagsVerify : Obligations.GeneratedTagsVerify := by
  intro s t hsk hd ht tag
  obtain rfl := Host.Outcome.next.inj (((cmacgenTagsTheMessage s).1 hsk hd).symm.trans ht)
  refine ⟨_, (cmacvfyGivesTheVerdict _).1 hsk hd, rfl, ?_⟩
  exact decide_eq_true_iff.trans (and_iff_right rfl)

end Sys2Proof.Machine
end

section
/-! PROOFS. CCM: CCMINIT, its three checks and the binding it latches (43_ccm_cbcmac.md R160). -/

namespace Sys2Proof.Machine

/-- The seven legal tag lengths, listed (R160). -/
theorem legalTagLength_iff_mem (n : Nat) : legalTagLength n = true ↔ n ∈ [4, 6, 8, 10, 12, 14, 16] := by
  simp only [legalTagLength, Bool.and_eq_true, decide_eq_true_eq, beq_iff_eq, List.mem_cons, List.not_mem_nil, or_false]
  omega

/-- The tag length check of the table fails exactly where the length is not legal. -/
theorem check_tagLength_eq (n : Nat) : decide (n < 4 ∨ 16 < n ∨ n % 2 ≠ 0) = !legalTagLength n := by
  rw [Bool.eq_iff_iff, ← check_tagLength_iff, check_flag_iff]

/-- The three checks of CCMINIT in their order (R160). -/
theorem firstError_ccminit (s : State) :
    firstError .ccminit s =
      if legalTagLength s.maclen.toNat then
        if s.nlen = 13 then if s.klen = 16 then none else some .invalidKeySize else some .invalidNonceLength
      else some .invalidTagLength := by
  rw [firstError, checks, check_tagLength_eq]
  cases legalTagLength s.maclen.toNat with
  | false => rfl
  | true => by_cases hn : s.nlen = 13 <;> by_cases hk : s.klen = 16 <;> simp [firstFailing, hn, hk]

/-- Settles O39: the end after the three checks, or the error the first failing one reports. -/
theorem ccminitLatchesTheBinding : Obligations.CcminitLatchesTheBinding := by
  intro s
  simp only [← legalTagLength_iff_mem]
  rw [exec_eq_next_commandEnd rfl]
  refine ⟨fun hm hn hk => ?_, fun hm => ?_, fun hm hn => ?_, fun hm hn hk => ?_⟩
  · rw [commandEnd_of_no_error (by rw [firstError_ccminit, if_pos hm, if_pos hn, if_pos hk])]
    rfl
  · rw [commandEnd_of_error (by rw [firstError_ccminit, if_neg hm])]
  · rw [commandEnd_of_error (by rw [firstError_ccminit, if_pos hm, if_neg hn])]
  · rw [commandEnd_of_error (by rw [firstError_ccminit, if_pos hm, if_pos hn, if_neg hk])]

end Sys2Proof.Machine
end

section
/-! PROOFS. Counter mode and the commands CCMENC and CCMDEC: the transform, the two ends of CCMDEC, and the round trip
(44_ccm_ctr.md R182 to R186, 60_exceptions.md R207). -/

namespace Sys2Proof.Machine

/-! ### Counter mode (R182) -/

theorem ctrXor_length (rk : RoundKeys) (nonce : Nonce) (d : List Byte) : (ctrXor rk nonce d).length = d.length :=
  List.length_mapIdx

theorem ctrXor_getElem (rk : RoundKeys) (nonce : Nonce) (d : List Byte) {t : Nat} (h : t < (ctrXor rk nonce d).length) :
    (ctrXor rk nonce d)[t] = d[t]'(ctrXor_length rk nonce d ▸ h) ^^^ (keystream rk nonce (1 + t / 16))[t % 16]'(by omega) :=
  List.getElem_mapIdx

/-- The keystream does not depend on the data, so the second transform cancels the first byte by byte. -/
theorem ctrXor_ctrXor (rk : RoundKeys) (nonce : Nonce) (d : List Byte) : ctrXor rk nonce (ctrXor rk nonce d) = d := by
  refine List.ext_getElem (by rw [ctrXor_length, ctrXor_length]) fun t _ _ => ?_
  rw [ctrXor_getElem, ctrXor_getElem, BitVec.xor_assoc, BitVec.xor_self, BitVec.xor_zero]

/-- Settles O43 by the bytes of the transform. -/
theorem counterModeIsItsOwnInverse : Obligations.CounterModeIsItsOwnInverse := fun rk nonce d =>
  ⟨ctrXor_length rk nonce d,
    fun t h => by
      have ht : t < (ctrXor rk nonce d).length := (ctrXor_length rk nonce d).symm ▸ h
      rw [List.getElem?_eq_getElem ht, ctrXor_getElem]; rfl,
    ctrXor_ctrXor rk nonce d⟩

/-! ### CCMENC (R185) -/

/-- The three checks of CCMENC in their order. -/
theorem firstError_ccmenc (s : State) :
    firstError .ccmenc s =
      if s.ccmvalid = false then some .notConstructed
      else if 65536 ≤ s.dlen.toNat then some .plaintextTooLong
      else if Config.abufCap < s.alen.toNat then some .bufferCapacity
      else none := by
  simp only [firstError, checks, firstFailing, decide_eq_true_iff, ← check_flag_iff]

/-- CCMENC completes once its checks have passed. -/
theorem exec_ccmenc_of_checks {s : State} (hv : s.ccmvalid = true) (hd : s.dlen.toNat < 65536)
    (ha : s.alen.toNat ≤ Config.abufCap) : exec .ccmenc s = .next (completed .ccmenc s) := by
  have hchecks : firstError .ccmenc s = none := by
    rw [firstError_ccmenc, if_neg (ne_false_of_eq_true hv), if_neg (Nat.not_le.2 hd), if_neg (Nat.not_lt.2 ha)]
  rw [exec_eq_next_commandEnd rfl, commandEnd_of_no_error hchecks]

/-- Settles O40: the end after the three checks, or the error the first failing one reports. -/
theorem ccmencEncryptsAndTags : Obligations.CcmencEncryptsAndTags := by
  intro s
  refine ⟨fun hv hd ha => exec_ccmenc_of_checks hv hd ha, fun hv => ?_, fun hv hd => ?_, fun hv hd ha => ?_⟩ <;>
    rw [exec_eq_next_commandEnd rfl]
  · rw [commandEnd_of_error (by rw [firstError_ccmenc, if_pos hv])]
  · rw [commandEnd_of_error (by rw [firstError_ccmenc, if_neg (ne_false_of_eq_true hv), if_pos hd])]
  · rw [commandEnd_of_error (by rw [firstError_ccmenc, if_neg (ne_false_of_eq_true hv), if_neg (Nat.not_le.2 hd), if_pos ha])]

/-! ### CCMDEC (R186, R207) -/

/-- The four checks of CCMDEC in their order. -/
theorem firstError_ccmdec (s : State) :
    firstError .ccmdec s =
      if s.ccmvalid = false then some .notConstructed
      else if s.tlen.toNat ≠ s.mlen.toNat then some .invalidTagLength
      else if 65536 ≤ s.dlen.toNat then some .plaintextTooLong
      else if Config.abufCap < s.alen.toNat then some .bufferCapacity
      else none := by
  simp only [firstError, checks, firstFailing, decide_eq_true_iff, ← check_flag_iff]

/-- CCMDEC completes once its checks have passed. -/
theorem exec_ccmdec_of_checks {s : State} (hv : s.ccmvalid = true) (ht : s.tlen.toNat = s.mlen.toNat)
    (hd : s.dlen.toNat < 65536) (ha : s.alen.toNat ≤ Config.abufCap) :
    exec .ccmdec s = .next (completed .ccmdec s) := by
  have hchecks : firstError .ccmdec s = none := by
    rw [firstError_ccmdec, if_neg (ne_false_of_eq_true hv), if_neg (not_not_intro ht), if_neg (Nat.not_le.2 hd),
      if_neg (Nat.not_lt.2 ha)]
  rw [exec_eq_next_commandEnd rfl, commandEnd_of_no_error hchecks]

/-- The comparator accepts exactly the authentic data (R148, R186). -/
theorem tagAccepted_iff_authentic {s : State} (hm : s.mlen.toNat ≤ 16) (ht : s.tlen.toNat = s.mlen.toNat) :
    tagAccepted s = true ↔ Authentic s := by
  have hlen := firstBytes_length hm (tagFor s (transformed s))
  rw [tagAccepted, tagsMatch_iff (by rwa [hlen, Vector.length_toList]), hlen, and_iff_right ht, List.prefix_iff_eq_take,
    hlen, Authentic, firstBytes, firstBytes]

/-- Settles O41: the checks pass and the comparator accepts. -/
theorem ccmdecReturnsAuthenticPlaintext : Obligations.CcmdecReturnsAuthenticPlaintext := by
  intro s hv hm ht hd ha hauth
  rw [exec_ccmdec_of_checks hv ht hd ha, completed, if_pos ((tagAccepted_iff_authentic hm ht).2 hauth)]
  rfl

/-- A string store covers one of the same length at the same address. -/
theorem memWriteBytes_memWriteBytes {m : Memory} (hm : Memory.wf m) (a : Nat) {bs cs : List Byte} (h : bs.length = cs.length) :
    memWriteBytes (memWriteBytes m a bs) a cs = memWriteBytes m a cs := by
  have hbs := memWriteBytes_wf bs hm a
  refine memory_ext (memWriteBytes_wf cs hbs a) (memWriteBytes_wf cs hm a) fun b => ?_
  rw [memRead_memWriteBytes cs hbs, memRead_memWriteBytes cs hm, memRead_memWriteBytes bs hm, h]
  split <;> rfl

/-- Settles O42: the comparator refuses, and the zeros cover the recovered bytes. -/
theorem ccmdecZeroesOnMismatch : Obligations.CcmdecZeroesOnMismatch := by
  intro s hv hm ht hd ha hw hforged
  rw [exec_ccmdec_of_checks hv ht hd ha, completed, if_neg (mt (tagAccepted_iff_authentic hm ht).1 hforged),
    memWriteBytes_memWriteBytes hw 0 (by rw [transformed_length, List.length_replicate])]
  rfl

/-! ### The round trip (R186) -/

/-- A read of the place of a string store. -/
theorem memReadBytes_memWriteBytes {m : Memory} (hm : Memory.wf m) (a : Nat) (bs : List Byte) {n : Nat} (hn : bs.length = n) :
    memReadBytes (memWriteBytes m a bs) a n = bs := by
  subst hn
  refine List.ext_getElem (memReadBytes_length _ _ _) fun k _ hk => ?_
  rw [memReadBytes_getElem, memRead_memWriteBytes bs hm, if_pos (by omega), Nat.add_sub_cancel_left,
    List.getD_eq_getElem _ _ hk]

theorem firstBytes_overlay (n : Nat) (new old : Block) : firstBytes (overlay n new old) n = firstBytes new n := by
  refine List.ext_getElem (by simp [firstBytes]) fun k hk _ => ?_
  have hkn : k < n := by simp [firstBytes] at hk; omega
  simp [firstBytes, overlay, hkn]

/-- The host's moves between the two commands: the ciphertext from DOUT into DIN, the tag from TAGOUT into TAGIN, and their lengths. -/
def withOutputSupplied (t : State) : State :=
  { t with
    din := memWriteBytes t.din 0 (memReadBytes t.dout 0 t.olen.toNat), dlen := t.olen
    tagin := overlay t.tolen.toNat t.tagout t.tagin, tlen := t.tolen.setWidth 32 }

/-- The state CCMDEC starts in: the output of a completed CCMENC supplied as its input. -/
def encryptedInput (s : State) : State := withOutputSupplied (completed .ccmenc s)

/-- What stands in that state, the output of CCMENC written out. -/
theorem encryptedInput_eq (s : State) :
    encryptedInput s =
      { succeeded s with
        dout := memWriteBytes s.dout 0 (transformed s), olen := s.dlen
        tagout := overlay s.mlen.toNat (tagFor s (dataOperand s)) s.tagout, tolen := s.mlen.setWidth 8
        din := memWriteBytes s.din 0 (memReadBytes (memWriteBytes s.dout 0 (transformed s)) 0 s.dlen.toNat), dlen := s.dlen
        tagin := overlay (s.mlen.setWidth 8).toNat (overlay s.mlen.toNat (tagFor s (dataOperand s)) s.tagout) s.tagin
        tlen := (s.mlen.setWidth 8).setWidth 32 } := rfl

@[simp] theorem encryptedInput_rk (s : State) : (encryptedInput s).rk = s.rk := by rw [encryptedInput_eq, succeeded_rk]
@[simp] theorem encryptedInput_nonce (s : State) : (encryptedInput s).nonce = s.nonce := by rw [encryptedInput_eq, succeeded_nonce]
@[simp] theorem encryptedInput_mlen (s : State) : (encryptedInput s).mlen = s.mlen := by rw [encryptedInput_eq, succeeded_mlen]
@[simp] theorem encryptedInput_abuf (s : State) : (encryptedInput s).abuf = s.abuf := by rw [encryptedInput_eq, succeeded_abuf]
@[simp] theorem encryptedInput_alen (s : State) : (encryptedInput s).alen = s.alen := by rw [encryptedInput_eq, succeeded_alen]
@[simp] theorem encryptedInput_dlen (s : State) : (encryptedInput s).dlen = s.dlen := by rw [encryptedInput_eq]
@[simp] theorem encryptedInput_ccmvalid (s : State) : (encryptedInput s).ccmvalid = s.ccmvalid := by
  rw [encryptedInput_eq, succeeded_ccmvalid]
@[simp] theorem encryptedInput_dout (s : State) : (encryptedInput s).dout = memWriteBytes s.dout 0 (transformed s) := by
  rw [encryptedInput_eq]

/-- DIN holds the ciphertext. -/
theorem dataOperand_encryptedInput {s : State} (hdin : Memory.wf s.din) (hdout : Memory.wf s.dout) :
    dataOperand (encryptedInput s) = transformed s := by
  have hlen := transformed_length s
  rw [dataOperand, encryptedInput_dlen, encryptedInput_eq, memReadBytes_memWriteBytes hdout 0 _ hlen,
    memReadBytes_memWriteBytes hdin 0 _ hlen]

/-- The round keys and the nonce are those of the encryption, so the transform gives the plaintext back. -/
theorem transformed_encryptedInput {s : State} (hdin : Memory.wf s.din) (hdout : Memory.wf s.dout) :
    transformed (encryptedInput s) = dataOperand s := by
  rw [transformed, dataOperand_encryptedInput hdin hdout, encryptedInput_rk, encryptedInput_nonce, transformed, ctrXor_ctrXor]

theorem tagFor_encryptedInput (s : State) (p : List Byte) : tagFor (encryptedInput s) p = tagFor s p := by
  simp only [tagFor, aadOperand, encryptedInput_rk, encryptedInput_nonce, encryptedInput_mlen, encryptedInput_abuf,
    encryptedInput_alen]

/-- TOLEN, of 8 bits, states every MLEN. -/
theorem toNat_setWidth_mlen (m : BitVec 5) : (m.setWidth 8).toNat = m.toNat :=
  BitVec.toNat_setWidth_of_le (by decide)

theorem toNat_tlen_encryptedInput (s : State) : (encryptedInput s).tlen.toNat = s.mlen.toNat := by
  rw [encryptedInput_eq, BitVec.toNat_setWidth_of_le (by decide), toNat_setWidth_mlen]

theorem firstBytes_tagin_encryptedInput (s : State) :
    firstBytes (encryptedInput s).tagin s.mlen.toNat = firstBytes (tagFor s (dataOperand s)) s.mlen.toNat := by
  rw [encryptedInput_eq, toNat_setWidth_mlen, firstBytes_overlay, firstBytes_overlay]

/-- The tag of the encryption is that of the recovered plaintext. -/
theorem authentic_encryptedInput {s : State} (hdin : Memory.wf s.din) (hdout : Memory.wf s.dout) :
    Authentic (encryptedInput s) := by
  rw [Authentic, transformed_encryptedInput hdin hdout, tagFor_encryptedInput, encryptedInput_mlen,
    firstBytes_tagin_encryptedInput]

/-- CCMDEC on the output of CCMENC leaves the plaintext in DOUT (R186). -/
theorem exec_ccmdec_encryptedInput {s : State} (hv : s.ccmvalid = true) (hm : s.mlen.toNat ≤ 16)
    (hd : s.dlen.toNat < 65536) (ha : s.alen.toNat ≤ Config.abufCap) (hdin : Memory.wf s.din) (hdout : Memory.wf s.dout) :
    exec .ccmdec (encryptedInput s) = .next
      { succeeded (encryptedInput s) with
        dout := memWriteBytes (memWriteBytes s.dout 0 (transformed s)) 0 (dataOperand s), olen := s.dlen } := by
  rw [ccmdecReturnsAuthenticPlaintext _ (by rwa [encryptedInput_ccmvalid]) (by rwa [encryptedInput_mlen])
    (by rw [toNat_tlen_encryptedInput, encryptedInput_mlen]) (by rwa [encryptedInput_dlen]) (by rwa [encryptedInput_alen])
    (authentic_encryptedInput hdin hdout), transformed_encryptedInput hdin hdout, encryptedInput_dout, encryptedInput_dlen]

/-- Settles O45: CCMENC completes, and CCMDEC on its output leaves the plaintext. -/
theorem decryptionInvertsEncryption : Obligations.DecryptionInvertsEncryption := by
  intro s t hv hm hd ha hdin hdout ht
  obtain rfl := Host.Outcome.next.inj ((exec_ccmenc_of_checks hv hd ha).symm.trans ht)
  exact ⟨_, exec_ccmdec_encryptedInput hv hm hd ha hdin hdout, rfl, rfl, rfl,
    memReadBytes_memWriteBytes (memWriteBytes_wf _ hdout 0) 0 _ (dataOperand_length s)⟩

end Sys2Proof.Machine
end

section
/-! PROOFS. CLEAR: it has no check to fail, and its end is the reset state (45_system.md R195). -/

namespace Sys2Proof.Machine

theorem firstError_clear (s : State) : firstError .clear s = none := rfl

theorem exec_clear (s : State) : exec .clear s = .next (resetAll s) := by
  rw [exec_eq_next_commandEnd rfl, commandEnd_of_no_error (firstError_clear s), completed]

/-- Settles O8: CLEAR ends completed, and completing it resets all but the host's list and read values. -/
theorem clearLeavesTheResetState : Obligations.ClearLeavesTheResetState := by
  intro s
  rw [exec_clear, resetAll]

end Sys2Proof.Machine
end

section
/-! PROOFS. Key material and errors as the host sees them: no read shows KEYIN, RK, K1 or K2, the first failing check is the error
reported, and an error leaves the rest of the state as it was (60_exceptions.md R211, R212, R216). -/

namespace Sys2Proof.Machine

/-! ### Key material (R216) -/

/-- `s` with other key material: KEYIN, RK, K1 and K2 (R21, R38, R39). -/
def State.withKeyMaterial (s : State) (key k1 k2 : Block) (rk : RoundKeys) : State :=
  { s with keyin := key, rk := rk, k1 := k1, k2 := k2 }

@[simp] theorem withKeyMaterial_got (s : State) (key k1 k2 : Block) (rk : RoundKeys) :
    (s.withKeyMaterial key k1 k2 rk).got = s.got := rfl

/-- No register shows key material: KEYIN reads 0, and RK, K1 and K2 have no number (R36, R37). -/
@[simp] theorem readRegister_withKeyMaterial (r : Reg) (s : State) (key k1 k2 : Block) (rk : RoundKeys) :
    readRegister r (s.withKeyMaterial key k1 k2 rk) = readRegister r s := by
  cases r <;> rfl

@[simp] theorem bufferOf_withKeyMaterial (b : Buffer) (s : State) (key k1 k2 : Block) (rk : RoundKeys) :
    bufferOf b (s.withKeyMaterial key k1 k2 rk) = bufferOf b s := by
  cases b <;> rfl

/-- Settles O17: a register read and a buffer read each answer a value that the key material does not enter. -/
theorem keyMaterialIsUnreadable : Obligations.KeyMaterialIsUnreadable := by
  intro s key k1 k2 rk a t ha ht
  change ∃ t', hostAccess a (s.withKeyMaterial key k1 k2 rk) = .next t' ∧ t'.got = t.got
  obtain ⟨n, rfl⟩ | ⟨b, addr, rfl⟩ := ha
  · obtain rfl := Host.Outcome.next.inj ht
    refine ⟨_, rfl, ?_⟩
    rw [answer_got, answer_got, readRegister_withKeyMaterial, withKeyMaterial_got]
  · rw [hostAccess] at ht
    split at ht
    case isTrue haddr =>
      obtain rfl := Host.Outcome.next.inj ht
      refine ⟨_, if_pos haddr, ?_⟩
      rw [answer_got, answer_got, bufferOf_withKeyMaterial, withKeyMaterial_got]
    case isFalse => cases ht

/-! ### The first failing check (R211) -/

/-- The internal operations make no checks. -/
theorem checks_of_not_hostVisible {i : Instr} (h : i.hostVisible = false) (s : State) : checks i s = [] := by
  cases i <;> cases h <;> rfl

/-- Only a host command reports an error. -/
theorem hostVisible_of_firstError {i : Instr} {s : State} {e : ErrCode} (h : firstError i s = some e) :
    i.hostVisible = true := by
  by_contra hv
  rw [firstError, checks_of_not_hostVisible (Bool.eq_false_of_not_eq_true hv)] at h
  cases h

/-- Settles O49: what makes a check is a host command, and it ends in the error of its first failing check. -/
theorem firstFailingCheckIsReported : Obligations.FirstFailingCheckIsReported := by
  intro i s e h
  rw [exec_eq_next_commandEnd (hostVisible_of_firstError h), commandEnd_of_error h]

/-! ### Errors are precise (R212) -/

/-- What a command that ends in error `e` leaves: STATUS, OLEN and TOLEN, and after AuthenticationFailure zeros over the recovered
bytes (R212, R186). -/
def errorEnd (e : ErrCode) (s : State) : State :=
  { failed e s with
    dout := if e = .authenticationFailure then memWriteBytes s.dout 0 (List.replicate s.dlen.toNat 0) else s.dout }

@[simp] theorem errorEnd_err (e : ErrCode) (s : State) : (errorEnd e s).err = e := rfl

theorem errorEnd_of_ne {e : ErrCode} (h : e ≠ .authenticationFailure) (s : State) : errorEnd e s = failed e s := by
  rw [errorEnd, if_neg h]
  rfl

/-- No check reports AuthenticationFailure: it needs the whole computation (R211). -/
theorem firstError_ne_authenticationFailure {i : Instr} {s : State} {e : ErrCode} (h : firstError i s = some e) :
    e ≠ .authenticationFailure := by
  obtain ⟨c, hc, rfl⟩ := mem_of_firstFailing h
  revert c
  cases i <;> simp [checks]

/-- Past its checks only CCMDEC can end in error, when it refuses the tag. -/
theorem completed_eq_errorEnd {i : Instr} (h : i.hostVisible = true) {s : State} (hw : Memory.wf s.dout)
    (he : (completed i s).err ≠ .none) : completed i s = errorEnd .authenticationFailure s := by
  cases i, h using commandCases with
  | ccmdec =>
    rw [completed] at he ⊢
    split at he
    case isTrue => exact absurd rfl he
    case isFalse hrefused =>
      rw [if_neg hrefused, memWriteBytes_memWriteBytes hw 0 (by rw [transformed_length, List.length_replicate])]
      rfl
  | _ => exact absurd rfl he

theorem commandEnd_eq_errorEnd {i : Instr} (h : i.hostVisible = true) {s : State} (hw : Memory.wf s.dout)
    (he : (commandEnd i s).err ≠ .none) : ∃ e, commandEnd i s = errorEnd e s := by
  cases hchecks : firstError i s with
  | some e => exact ⟨e, by rw [commandEnd_of_error hchecks, errorEnd_of_ne (firstError_ne_authenticationFailure hchecks)]⟩
  | none =>
    rw [commandEnd_of_no_error hchecks] at he ⊢
    exact ⟨_, completed_eq_errorEnd h hw he⟩

/-- A write to CMD that ends in error, whether the code is a command's or reserved. -/
theorem eq_errorEnd_of_issueCommand {c : Byte} {s t : State} (hw : Memory.wf s.dout) (ht : issueCommand c s = .next t)
    (he : t.err ≠ .none) : ∃ e, t = errorEnd e s := by
  unfold issueCommand at ht
  split at ht
  case h_1 i hi =>
    have hv := hostVisible_of_decodeCommand hi
    obtain rfl := eq_commandEnd_of_exec hv ht
    exact commandEnd_eq_errorEnd hv hw he
  case h_2 =>
    rw [unknownCommand, raise_prologue_eq_failed] at ht
    exact ⟨.unknownCommand, by rw [← Host.Outcome.next.inj ht, errorEnd_of_ne (by decide)]⟩

/-- Settles O50: the error a write to CMD ends in determines its end. -/
theorem errorsArePrecise : Obligations.ErrorsArePrecise := by
  intro c s t hw ht he
  obtain ⟨e, rfl⟩ := eq_errorEnd_of_issueCommand hw ht he
  rw [errorEnd_err, errorEnd]

end Sys2Proof.Machine
end

section
/-! PROOFS. What happens without a command and at reset, nonce reuse, OK as the verdict, and the measure of work
(70_reset_and_hazards.md R230, R232, R234, R236, R243). -/

namespace Sys2Proof.Machine

/-! ### No access, and reset (R230, R232) -/

/-- Settles O5: a step has only the host's next access to perform. -/
theorem nothingHappensWithoutTheHost : Obligations.NothingHappensWithoutTheHost := fun _ => step_of_no_host

/-- Settles O7: the access performed is `resetAll`, which keeps the host's list and its read values. -/
theorem resetAccessLeavesTheResetState : Obligations.ResetAccessLeavesTheResetState := by
  intro s rest hs
  rw [step_of_host hs, hostAccess, resetAll]

/-! ### One binding, two messages (R236) -/

/-- Two bytes masked with the same keystream byte differ as the bytes do. -/
theorem masked_xor_masked (x y k : Byte) : x ^^^ k ^^^ (y ^^^ k) = x ^^^ y := by
  calc x ^^^ k ^^^ (y ^^^ k)
      = x ^^^ y ^^^ (k ^^^ k) := by ac_rfl
    _ = x ^^^ y := by rw [BitVec.xor_self, BitVec.xor_zero]

/-- Settles O44: byte by byte the keystream, which does not depend on the data, cancels. -/
theorem nonceReuseRevealsTheXor : Obligations.NonceReuseRevealsTheXor := by
  intro rk nonce p q
  refine List.ext_getElem (by simp only [List.length_zipWith, ctrXor_length]) fun t _ _ => ?_
  simp only [List.getElem_zipWith, ctrXor_getElem, masked_xor_masked]

/-! ### OK and ERR (R243) -/

/-- A command that completes sets OK and no error; CCMDEC may refuse the tag and then does neither. -/
theorem ok_completed_iff {i : Instr} (h : i.hostVisible = true) (hc : i ≠ .clear) (hv : i ≠ .cmacvfy) (s : State) :
    (completed i s).ok = true ↔ (completed i s).err = .none := by
  cases i, h using commandCases with
  | clear => exact absurd rfl hc
  | cmacvfy => exact absurd rfl hv
  | ccmdec =>
    rw [completed]
    split
    case isTrue => exact iff_of_true rfl rfl
    case isFalse => exact iff_of_false Bool.false_ne_true (fun he => nomatch he)
  | _ => exact iff_of_true rfl rfl

/-- Settles O57: a failed check leaves OK 0 and its error, and a CMACVFY past its checks leaves ERR 0, whatever its verdict. -/
theorem okIsTheVerdict : Obligations.OkIsTheVerdict := by
  intro i s t h hc ht
  rw [eq_commandEnd_of_exec h ht]
  obtain ⟨e, he, hend⟩ | ⟨-, hend⟩ := commandEnd_cases i s <;> rw [hend]
  · rw [failed_ok, failed_err]
    exact ⟨fun _ => iff_of_false Bool.false_ne_true he, fun hok => absurd hok Bool.false_ne_true⟩
  · by_cases hv : i = .cmacvfy
    · subst hv
      exact ⟨fun hne => absurd rfl hne, fun _ => rfl⟩
    · have hiff := ok_completed_iff h hc hv s
      exact ⟨fun _ => hiff, hiff.1⟩

/-! ### The measure of work (R234) -/

/-- A message has a block, complete or padded, even when it is empty (R144). -/
theorem cmacBlockCount_eq_max (n : Nat) : cmacBlockCount n = max 1 (ceil16 n / 16) := by
  unfold cmacBlockCount lastComplete ceil16
  split
  case isTrue h =>
    obtain ⟨hpos, hmod⟩ : 0 < n ∧ n % 16 = 0 := by simpa using h
    omega
  case isFalse h =>
    have hn : 0 < n → n % 16 ≠ 0 := by simpa using h
    omega

theorem one_le_cmacBlockCount (n : Nat) : 1 ≤ cmacBlockCount n := cmacBlockCount_eq_max n ▸ Nat.le_max_left ..

/-- CMAC absorbs one block for each iteration of its loop, and then the masked last one (R144, R145). -/
theorem cmacBlocks_length (k1 k2 : Block) (m : List Byte) : (cmacBlocks k1 k2 m).length = cmacBlockCount m.length := by
  rw [cmacBlocks, List.length_append, List.length_map, List.length_range, List.length_singleton]
  exact Nat.sub_add_cancel (one_le_cmacBlockCount _)

/-- CBC-MAC absorbs B0, the blocks of the associated data and those of the message (R163). -/
theorem splitBlocks_ccmStream_length (nonce : Nonce) (m : Nat) (aad p : List Byte) :
    (splitBlocks (ccmStream nonce m aad p)).length = 1 + aadBlockCount aad.length + dataBlockCount p.length := by
  simp only [splitBlocks_ccmStream, List.length_cons, List.length_append, List.length_map, List.length_range]
  omega

theorem calls_of_no_error {i : Instr} {s : State} (h : firstError i s = none) :
    (encryptCalls i s, scheduleCalls i s) = (encryptLoopCalls i s, scheduleLoopCalls i) := by
  rw [encryptCalls, scheduleCalls, h]

theorem calls_of_error {i : Instr} {s : State} {e : ErrCode} (h : firstError i s = some e) :
    (encryptCalls i s, scheduleCalls i s) = (0, 0) := by
  rw [encryptCalls, scheduleCalls, h]

theorem callsOfWrite_of_reserved {c : Byte} (h : c = 0x00 ∨ 0x0A ≤ c.toNat) (s : State) : callsOfWrite c s = (0, 0) := by
  rw [callsOfWrite, decodeCommand_of_reserved h]

/-- CMACGEN and CMACVFY call `E` once for each block of the message. -/
theorem encryptLoopCalls_cmac {i : Instr} (hi : i = .cmacgen ∨ i = .cmacvfy) (s : State) :
    encryptLoopCalls i s = max 1 (ceil16 s.dlen.toNat / 16) := by
  rw [← cmacBlockCount_eq_max, ← Nat.sub_add_cancel (one_le_cmacBlockCount s.dlen.toNat)]
  obtain rfl | rfl := hi <;> rfl

/-- CCMENC and CCMDEC call `E` for the MAC, for S0 and for the keystream, CCMDEC for the keystream first. -/
theorem encryptLoopCalls_ccm {i : Instr} (hi : i = .ccmenc ∨ i = .ccmdec) (s : State) :
    encryptLoopCalls i s =
      (1 + aadBlockCount s.alen.toNat + dataBlockCount s.dlen.toNat) + 1 + dataBlockCount s.dlen.toNat := by
  obtain rfl | rfl := hi
  · rfl
  · rw [encryptLoopCalls, Nat.add_assoc, Nat.add_comm]

/-- Settles O58: the loop bounds of a command past its checks, row by row, and the lengths of the two lists of blocks. -/
theorem workCountsInClosedForm : Obligations.WorkCountsInClosedForm := by
  intro s
  refine ⟨fun i hv hno => ?_, fun i e => calls_of_error, fun c hc => callsOfWrite_of_reserved hc s, ?_, ?_⟩
  · rw [calls_of_no_error hno]
    cases i, hv using commandCases with
    | cmacgen => rw [encryptLoopCalls_cmac (.inl rfl)]; rfl
    | cmacvfy => rw [encryptLoopCalls_cmac (.inr rfl)]; rfl
    | ccmenc => rw [encryptLoopCalls_ccm (.inl rfl)]; rfl
    | ccmdec => rw [encryptLoopCalls_ccm (.inr rfl)]; rfl
    | _ => rfl
  · rw [cmacBlocks_length, memReadBytes_length, cmacBlockCount_eq_max]
  · rw [splitBlocks_ccmStream_length, memReadBytes_length, memReadBytes_length]
    rfl

end Sys2Proof.Machine
end
